-- ==== Sys2Proof/Word.lean ====
section
/-! DEFINITION. The words of the CORE: bytes, the 16-bit operand fields, the 2-bit sequence number and the
6-bit command code (spec/00_scope.md 5.1: u8, u16, u2, u6; every quantity is unsigned). -/

namespace Sys2Proof

/-- `u8`: one byte of the wire, and the CRC register. -/
abbrev Byte := BitVec 8

/-- `u16`: a masked READL operand. -/
abbrev HalfWord := BitVec 16

/-- `u2`: a value of the sequence counter `SEQ` (R10). -/
abbrev SeqNo := BitVec 2

/-- `u6`: a command code, bits 5:0 of the command byte (R42). A code of more than 6 bits cannot be written
down in this type, which is how R75 refuses it. -/
abbrev Code := BitVec 6

end Sys2Proof
end

