-- ==== Sys2Proof/Config.lean ====
section
/-! DEFINITION. The constants of R5 and the one parameter that the spec leaves open without a value
(`SYNC_ROUNDS_REQUIRED`, spec/92_eei_decisions.md D21). The type of transport errors, the other open
parameter, is `Machine.TransportError` in Machine/State.lean. -/

namespace Sys2Proof.Config

/-- `START_BYTE` (R5, R41). -/
def startByte : Byte := 0x55

/-- `CMD_SYNC` (R5, R43). -/
def cmdSync : Code := 0x01

/-- `CMD_READL` (R5, R43): an opaque constant without sub-fields (R44). -/
def cmdReadl : Code := 0x3C

/-- `SYNC_MARKER` (R5, R45), the first byte listed is sent first. -/
def syncMarker : List Byte :=
  [0x1F, 0x2E, 0x3D, 0x4C, 0x5B, 0x6A, 0x79, 0x88, 0x97, 0xA6, 0xB5, 0xC4, 0xD3, 0xE2, 0xF1]

/-- `SYNC_TAIL` (R5, R45): a literal without meaning. -/
def syncTail : Byte := 0x01

/-- `CRC_POLY` (R5, R60): x^8+x^4+x^3+x^2+1 without its x^8 term. `CRC_WIDTH` is the width of this type.
`CRC_REFIN` and `CRC_REFOUT` are false: the engine of R61 has no reflection step. -/
def crcPoly : Byte := 0x1D

/-- `CRC_INIT` (R5, R60). -/
def crcInit : Byte := 0xFF

/-- `CRC_XOROUT` (R5, R60). -/
def crcXorOut : Byte := 0xFF

/-- `SEQ_RESET` (R5, R18). `SEQ_WIDTH` is the width of `SeqNo`. -/
def seqReset : SeqNo := 0

/-- `ID_WIDTH` (R5). -/
def idWidth : Nat := 16

/-- `OFFSET_WIDTH` (R5). -/
def offsetWidth : Nat := 16

/-- `MAX_RUN` (R5, R26): the largest run one READL can request. `LENGTH_WIDTH` is the width of its field. -/
def maxRun : Nat := 65535

/-- `SYNC_ROUNDS_REQUIRED` (R133, 92_eei_decisions.md D21): how many SYNCs a host must issue before it reads.
DESIGN CHOICE (log entry 14): the source gives no value, so this constant has none either; no rule of the
CORE reads it. -/
opaque syncRoundsRequired : Nat

end Sys2Proof.Config
end

