-- ==== Sys2Proof/Machine/Operands.lean ====
section
/-! DEFINITION. Operand assembly: masking to 16 bits (R51, R91), big-endian splitting (R22) and the two payloads
(R45, R46). READL has three operands and one form; SYNC has none. -/

namespace Sys2Proof

/-- `v & 0xFFFF` (R51, R91): the bits above bit 15 are dropped without any error. -/
def mask16 (v : Nat) : HalfWord := BitVec.ofNat 16 v

/-- `be16(v) = [v[15:8], v[7:0]]` (R22). -/
def be16 (v : HalfWord) : List Byte := [v.extractLsb' 8 8, v.extractLsb' 0 8]

/-- `(hi << 8) | lo` (R55): the number whose `be16` is `[hi, lo]`. -/
def fromBe16 (hi lo : Byte) : HalfWord := (hi.setWidth 16 <<< 8) ||| lo.setWidth 16

/-- The constant SYNC payload of 16 bytes (R45). -/
def syncPayload : List Byte := Config.syncMarker ++ [Config.syncTail]

/-- The READL payload of 6 bytes, from the masked operands (R46). -/
def readlPayload (slave offset length : HalfWord) : List Byte := be16 slave ++ be16 offset ++ be16 length

end Sys2Proof
end

