-- ==== Sys2Proof/Syntax.lean ====
section
/-! DEFINITION. The instruction set: the two host commands of R53, one constructor per row of
spec/opcode_table.json. -/

namespace Sys2Proof

/-- A host command. It is a value, not an encoded word (R32, R53); its operands are natural numbers of
unbounded size (R51, 92_eei_decisions.md D3, log entry 12). -/
inductive Instr
  /-- `SYNC` (R80). -/
  | sync
  /-- `READL slave, offset, length` (R90). -/
  | readl (slave offset length : Nat)
  deriving DecidableEq, Repr

/-- What a request frame says to a reader of the wire: the sequence number and the command (R55). -/
structure Request where
  seq : SeqNo
  instr : Instr
  deriving DecidableEq, Repr

end Sys2Proof
end

