-- ==== Sys2Proof/WellFormed.lean ====
section
/-! DEFINITION. Which commands a request frame can carry without truncation (R137: operand range is the host's
duty). An out-of-range command is executed all the same, its operands truncated (R91); only the round trip
through the encoding needs the range. -/

namespace Sys2Proof

/-- The slave id fits its 16-bit field (R5 `ID_WIDTH`, R46). -/
def slaveInRange (slave : Nat) : Bool := decide (slave < 2 ^ Config.idWidth)

/-- The offset fits its 16-bit field (R5 `OFFSET_WIDTH`, R46). -/
def offsetInRange (offset : Nat) : Bool := decide (offset < 2 ^ Config.offsetWidth)

/-- The length is one a READL can request (R5 `MAX_RUN`, R26). -/
def lengthInRange (length : Nat) : Bool := decide (length ≤ Config.maxRun)

/-- Every operand is in range (R137). -/
def Instr.wf : Instr → Bool
  | .sync => true
  | .readl slave offset length => slaveInRange slave && offsetInRange offset && lengthInRange length

/-- The command the CORE acts on: every operand reduced to 16 bits (R91). -/
def Instr.masked : Instr → Instr
  | .sync => .sync
  | .readl slave offset length => .readl (slave % 65536) (offset % 65536) (length % 65536)

end Sys2Proof
end

