-- ==== Sys2Proof/Decode.lean ====
section
/-! DEFINITION. Reading a request frame (R55), total on any bytes and rejecting by name, and after it the encoder
(R40 to R47). The CORE itself never decodes a frame (R55) and a host command has no binary form (R53): the decoder
is the inverse that R55 fixes, and it gives the words of spec/opcode_table.json their instruction. -/

namespace Sys2Proof

/-- Why a byte sequence is no request frame (R55). -/
inductive DecodeError
  /-- Fewer than two bytes: there is no command byte. -/
  | truncated
  /-- The first byte is not 0x55 (R41). -/
  | badStart (b : Byte)
  /-- One of the 62 codes that are never used (R50). -/
  | reservedCode (c : Code)
  /-- The length is not the one the code fixes (R49, R52). -/
  | badLength
  /-- The SYNC payload is not the constant of R45. -/
  | badSyncPayload
  /-- The last byte is not the CRC of the bytes before it (R47). -/
  | badCrc
  deriving DecidableEq, Repr

/-- Bits 7:6 of a command byte (R42). -/
def seqField (cmd : Byte) : SeqNo := cmd.extractLsb' 6 2

/-- Bits 5:0 of a command byte (R42). -/
def codeField (cmd : Byte) : Code := cmd.extractLsb' 0 6

/-- What the payload of a SYNC frame says (R45, R55). -/
def decodeSyncPayload (q : SeqNo) (payload : List Byte) : Except DecodeError Request :=
  if payload = syncPayload then .ok ⟨q, .sync⟩
  else if payload.length = 16 then .error .badSyncPayload
  else .error .badLength

/-- What the payload of a READL frame says: three big-endian fields (R46, R55). -/
def decodeReadlPayload (q : SeqNo) : List Byte → Except DecodeError Request
  | [s1, s0, o1, o0, l1, l0] =>
    .ok ⟨q, .readl (fromBe16 s1 s0).toNat (fromBe16 o1 o0).toNat (fromBe16 l1 l0).toNat⟩
  | _ => .error .badLength

/-- Read a frame without its trailer: start byte, command byte, payload (R40, R55). -/
def decodeBody : List Byte → Except DecodeError Request
  | start :: cmd :: payload =>
    if start = Config.startByte then
      if codeField cmd = Config.cmdSync then decodeSyncPayload (seqField cmd) payload
      else if codeField cmd = Config.cmdReadl then decodeReadlPayload (seqField cmd) payload
      else .error (.reservedCode (codeField cmd))
    else .error (.badStart start)
  | _ => .error .truncated

/-- Read a whole request frame: its body, and the trailer must be the CRC of the body (R47, R55). -/
def decodeFrame (f : List Byte) : Except DecodeError Request :=
  match decodeBody f.dropLast with
  | .ok r => if f.getLast? = some (crc8 f.dropLast) then .ok r else .error .badCrc
  | .error e => .error e

/-- Byte `k` of a number, counted from its least significant byte. -/
def byteOf (w k : Nat) : Byte := BitVec.ofNat 8 (w >>> (8 * k))

/-- The frame body that a word of spec/opcode_table.json stands for: the table numbers its bits from the command byte
(frame index 1), so byte 0 of the word is CMD_BYTE and the bytes after it are the operand bytes of the payload in
wire order. What the table gives no bits (start byte, SYNC payload) is supplied as R41 and R45 say (log entry 11). -/
def tableBody (nbits w : Nat) : List Byte :=
  let v := w % 2 ^ nbits
  let cmd := byteOf v 0
  let payload := if codeField cmd = Config.cmdSync then syncPayload
    else [byteOf v 1, byteOf v 2, byteOf v 3, byteOf v 4, byteOf v 5, byteOf v 6]
  Config.startByte :: cmd :: payload

/-- The instruction that the decoder reads from a table word. The table gives the trailer no bits; with the trailer
that R47 gives the body the answer is that of `decodeFrame` (`decodeFrame_sealBody`). -/
def decodeTableWord (nbits w : Nat) : Option Instr :=
  match decodeBody (tableBody nbits w) with
  | .ok r => some r.instr
  | .error _ => none

/-! ## The encoder -/

/-- `body ++ [crc8(body)]`: a body with its trailer (R47, R73). -/
def sealBody (body : List Byte) : List Byte := body ++ [crc8 body]

/-- The code of an instruction (R43). -/
def codeOf : Instr → Code
  | .sync => Config.cmdSync
  | .readl _ _ _ => Config.cmdReadl

/-- The payload of an instruction (R45, R46, operands masked as R51 says). -/
def payloadOf : Instr → List Byte
  | .sync => syncPayload
  | .readl slave offset length => readlPayload (mask16 slave) (mask16 offset) (mask16 length)

/-- The request frame of an instruction that carries the sequence number `q`: start byte, command byte with `q` in
bits 7:6 and the code in bits 5:0, payload, trailer (R40 to R47). -/
def encode (q : SeqNo) (i : Instr) : List Byte :=
  sealBody (Config.startByte :: (q ++ codeOf i) :: payloadOf i)

end Sys2Proof
end

