-- ==== Sys2Proof/Machine/Flags.lean ====
section
/-! DEFINITION. The CORE has no flags, condition codes or sticky bits (R13, R15). The one comparison whose outcome
selects a result is the extended CRC check of READL (R96, R97); it is computed here and kept nowhere. -/

namespace Sys2Proof

/-- `computedCrc` (R96): over the complete request frame, its own trailer included, followed by the payload (R103). -/
def extendedCrc (frame payload : List Byte) : Byte := crc8 (frame ++ payload)

/-- The check of R97 and R98. -/
def crcMatches (frame payload : List Byte) (received : Byte) : Bool := extendedCrc frame payload == received

/-- `payload` and `receivedCrc` (R95). It has no value unless `resp` has exactly `len + 1` bytes (R121). -/
def splitResponse (len : Nat) (resp : List Byte) : Option (List Byte × Byte) :=
  match resp.drop len with
  | [c] => some (resp.take len, c)
  | _ => none

end Sys2Proof
end

