-- ==== Sys2Proof/Machine/State.lean ====
section
/-! DEFINITION. The state of one CORE instance, as plain data, the reasons a step can stop, and the state after
reset (spec/10_state.md; 70_reset_and_hazards.md R130). The CORE has no register file, program counter, flags or
memory (R15): its one register is `seq`. -/

namespace Sys2Proof.Machine

/-- An error of the transport, passed on unchanged and never inspected (R112). DESIGN CHOICE (log entry 5): the spec
leaves the type open (92_eei_decisions.md D7); errors are told apart by a number without meaning. -/
structure TransportError where
  id : Nat
  deriving DecidableEq, Repr

/-- How an operation can fail (R110, a closed list). -/
inductive OpError
  /-- `CRCError` (R111): raised by READL only; it carries nothing. -/
  | crc
  /-- `TransportError(e)` (R112). -/
  | transport (e : TransportError)
  deriving DecidableEq, Repr

/-- How an operation ends (R110). That it may also never end is a phase that stays AWAIT, not a result (R122). -/
inductive OpResult
  /-- Success of SYNC: nothing is returned (R80). -/
  | unit
  /-- Success of READL: the payload bytes (R98). -/
  | payload (bytes : List Byte)
  /-- An error, delivered as the result (R118). -/
  | error (e : OpError)
  deriving DecidableEq, Repr

/-- What the transport answers to `TpWrite` (R20). -/
inductive WriteAnswer
  | ok
  | error (e : TransportError)
  deriving DecidableEq, Repr

/-- What the transport answers to `TpRead(n)` (R21): exactly `n` bytes, an error, or nothing yet. -/
inductive ReadAnswer
  | ok (bytes : List Byte)
  | error (e : TransportError)
  | pending
  deriving DecidableEq, Repr

/-- The observable effects (R6). A failed write is recorded as an attempt whose effect on the wire is unknown
(92_eei_decisions.md D22, log entry 17). -/
inductive Event
  /-- `SEQ` took this value. -/
  | seqChanged (q : SeqNo)
  /-- A `TpWrite` of one complete frame, with the transport's answer. -/
  | tpWrite (frame : List Byte) (answer : WriteAnswer)
  /-- A `TpRead` asking for this many bytes. -/
  | tpRead (count : Nat)
  /-- A result handed to the host. -/
  | result (r : OpResult)
  deriving DecidableEq, Repr

/-- The phase of R16. -/
inductive Phase
  | idle
  /-- `AWAIT(FRAME, length')`: a READL has sent FRAME and is blocked in `TpRead(length' + 1)`. -/
  | await (frame : List Byte) (len : HalfWord)
  deriving DecidableEq, Repr

/-- The transport behind the handle `TP` (R12), as far as the CORE meets it: what it will answer. Every field is the
environment's and free (R34); log entries 2 and 3. -/
structure Transport where
  /-- The receive path: the bytes the next `TpRead` takes first (R21, R33). -/
  rx : List Byte
  /-- A closed transport that reports its state answers every access with this error (R132). -/
  closedError : Option TransportError
  /-- The next `TpWrite` fails with this error (R20). -/
  writeFault : Option TransportError
  /-- The outstanding or next `TpRead` fails with this error (R21). -/
  readFault : Option TransportError
  deriving DecidableEq, Repr

/-- What the transport and the bus may do between two effects of the CORE (R34, R139). -/
inductive TransportInput
  /-- Bytes arrive at the end of the receive path. -/
  | receive (bytes : List Byte)
  /-- The receive path is cleared by the host or the transport, never by the CORE (R139). -/
  | clear
  /-- The transport decides how the next `TpWrite` goes. -/
  | writeFault (f : Option TransportError)
  /-- The transport decides whether the outstanding or next `TpRead` fails. A short read is this, too (R121). -/
  | readFault (f : Option TransportError)
  deriving DecidableEq, Repr

/-- One input from outside the CORE (R144 and R34). -/
inductive Input
  /-- The host presents an operation. -/
  | command (i : Instr)
  /-- The transport does something. -/
  | transport (t : TransportInput)
  /-- The transport is closed (R132): without a report the instance is destroyed; with one the model keeps it and
  every later access reports the error (93_implementation_defined.md U12, log entry 9). A second close is log entry 22. -/
  | close (report : Option TransportError)
  /-- A new instance is created (R130). -/
  | create
  deriving DecidableEq, Repr

/-- One CORE instance with its transport. -/
structure State where
  /-- `SEQ`, the sequence counter (R10). -/
  seq : SeqNo
  /-- The phase (R16). -/
  phase : Phase
  /-- The instance exists: created and not destroyed (R130, R132). -/
  alive : Bool
  /-- The transport that `TP` names (R12). -/
  tp : Transport
  /-- The model's own: what the host and the environment do next, first thing first (log entry 2). -/
  inputs : List Input
  /-- The model's own: the observable effects of this instance so far, oldest first (R6, log entry 10). -/
  events : List Event
  deriving DecidableEq, Repr

/-- The CORE has no fault: its errors are results of operations (R110, R118), so nothing raises one. The type is
empty (log entry 18); safe, since nothing can stop a machine through it. -/
inductive Fault
  deriving DecidableEq, Repr

/-- Uses outside the contract, to which the source gives no meaning (R125). All are safe: the model stops where a
real driver would do something that no source defines. -/
inductive Refusal
  /-- An instruction without a meaning in this model. Raised by nothing: both instructions have theirs. -/
  | notModelled (mnemonic : String)
  /-- A command presented while another operation is in progress (R134). Raised by both instructions. Safe. -/
  | operationInProgress
  /-- A command presented to an instance that was destroyed (R132). Raised by both instructions. Safe. -/
  | instanceDestroyed
  /-- A second instance created on a transport in use (R136). Raised by the input `create`. Safe. -/
  | transportShared
  /-- A reset applied while an operation is in progress (R131). Raised by the input `create`. Safe. -/
  | resetInProgress
  /-- The transport closed without a report while an operation is in progress: no source says what becomes of the
  blocked call (R132, log entry 19). Raised by the input `close`. Safe. -/
  | closedInProgress
  deriving DecidableEq, Repr

/-- A transport in use, with nothing waiting and no failure decided. DESIGN CHOICE (log entry 4): the spec calls the
buffers unspecified (R18). -/
def freshTransport : Transport := { rx := [], closedError := none, writeFault := none, readFault := none }

/-- The machine right after reset, which is creation (R18, R130): `SEQ = 0`, phase IDLE, nothing sent or read. -/
def State.reset : State :=
  { seq := Config.seqReset, phase := .idle, alive := true, tp := freshTransport, inputs := [], events := [] }

end Sys2Proof.Machine
end

