-- ==== Sys2Proof/Machine/Ops.lean ====
section
/-! DEFINITION. The operations that SYNC and READL share: building a frame (R70), the two transport primitives (R20,
R21), ending an operation by a result or by an error (R114, R118), and the check that a command may be issued
(R125). Errors are results: no state is saved and there is no return from one (R118). -/

namespace Sys2Proof.Machine

/-- `CMD_BYTE = cmdCode | ((SEQ << 6) & 0xC0)` (R71, 90_conflicts.md C4). -/
def cmdByte (q : SeqNo) (code : Code) : Byte := code.setWidth 8 ||| ((q.setWidth 8 <<< 6) &&& 0xC0)

/-- The frame that `buildFrame` assembles when `SEQ` is `q` (R71, R72, R73). -/
def frameBytes (q : SeqNo) (code : Code) (payload : List Byte) : List Byte :=
  let body := Config.startByte :: cmdByte q code :: payload
  body ++ [crc8 body]

/-- `SEQ <- (SEQ + 1) mod 4` (R74). -/
def State.advanceSeq (s : State) : State :=
  { s with seq := s.seq + 1, events := s.events ++ [.seqChanged (s.seq + 1)] }

/-- `buildFrame(cmdCode, payload)` (R70): the value `SEQ` has on entry goes into the frame, then `SEQ` advances
(90_conflicts.md C1); the advance is never undone (R78). -/
def buildFrame (code : Code) (payload : List Byte) (s : State) : List Byte × State :=
  (frameBytes s.seq code payload, s.advanceSeq)

/-- What the transport answers to a `TpWrite`, and the transport afterwards (R20, R132; log entry 3). -/
def Transport.write (tp : Transport) : WriteAnswer × Transport :=
  match tp.closedError, tp.writeFault with
  | some e, _ => (.error e, tp)
  | none, some e => (.error e, { tp with writeFault := none })
  | none, none => (.ok, tp)

/-- What the transport answers to a `TpRead(n)`, and the transport afterwards (R21, R33, R132; log entry 3): an
error, the next `n` bytes of the receive path in order, or nothing yet. -/
def Transport.read (n : Nat) (tp : Transport) : ReadAnswer × Transport :=
  match tp.closedError, tp.readFault with
  | some e, _ => (.error e, tp)
  | none, some e => (.error e, { tp with readFault := none })
  | none, none =>
    if n ≤ tp.rx.length then (.ok (tp.rx.take n), { tp with rx := tp.rx.drop n }) else (.pending, tp)

/-- `TpWrite(FRAME)` (R20): one send of the complete frame. -/
def tpWrite (frame : List Byte) (s : State) : WriteAnswer × State :=
  (s.tp.write.1, { s with tp := s.tp.write.2, events := s.events ++ [.tpWrite frame s.tp.write.1] })

/-- The call of `TpRead(length' + 1)` after FRAME has gone out: the CORE now awaits the response (R94, R104). The
count is a sum of natural numbers and does not wrap (R26). -/
def State.beginRead (frame : List Byte) (len : HalfWord) (s : State) : State :=
  { s with phase := .await frame len, events := s.events ++ [.tpRead (len.toNat + 1)] }

/-- The end of an operation: its result goes to the host, the phase is IDLE, the transient values are gone (R114,
R143). -/
def State.finish (r : OpResult) (s : State) : State :=
  { s with phase := .idle, events := s.events ++ [.result r] }

/-- `raise` (R111, R112, R118): the operation that raises ends with the error as its result; `SEQ` keeps its value and
nothing remembers the error (R114). -/
def State.raise (e : OpError) (s : State) : State := s.finish (.error e)

/-- Why a command may not be issued, if it may not (R125): the instance was destroyed (R132) or an operation is in
progress (R134). -/
def issueRefusal (s : State) : Option Refusal :=
  if s.alive then
    match s.phase with
    | .idle => none
    | .await _ _ => some .operationInProgress
  else some .instanceDestroyed

end Sys2Proof.Machine
end

