-- ==== Sys2Proof/Machine/ReadLogical.lean ====
section
/-! DEFINITION. The READ_LOGICAL operation (spec/43_read_logical.md), in the two halves of R104: `readlRequest` does
steps 1 to 3 and calls `TpRead`; `State.resume` does steps 4 to 8 as soon as the transport answers. -/

namespace Sys2Proof.Machine

/-- Steps 5 to 8 (R95 to R98) on the complete response. -/
def checkResponse (frame : List Byte) (len : HalfWord) (resp : List Byte) (s : State) : State :=
  match splitResponse len.toNat resp with
  | some (payload, received) =>
    if crcMatches frame payload received then s.finish (.payload payload) else s.raise .crc
  | none => s

/-- The second half (R94, R104): enabled when the transport answers the outstanding `TpRead`; otherwise the CORE
stays in AWAIT (R122). In IDLE there is nothing to resume. -/
def State.resume (s : State) : State :=
  match s.phase with
  | .idle => s
  | .await frame len =>
    match s.tp.read (len.toNat + 1) with
    | (.ok resp, tp) => checkResponse frame len resp { s with tp := tp }
    | (.error e, tp) => { s with tp := tp }.raise (.transport e)
    | (.pending, _) => s

/-- The first half (R91, R92, R93, R104): mask, build, write, and on success call `TpRead`. -/
def readlRequest (slave offset length : Nat) (s : State) : State :=
  let (frame, s₁) := buildFrame Config.cmdReadl (readlPayload (mask16 slave) (mask16 offset) (mask16 length)) s
  match tpWrite frame s₁ with
  | (.ok, s₂) => s₂.beginRead frame (mask16 length)
  | (.error e, s₂) => s₂.raise (.transport e)

/-- READL (R99), where it may be issued (R125): the first half, and the second at once if the transport already has
its answer. -/
def execReadl (slave offset length : Nat) (s : State) : Host.Outcome State Fault Refusal :=
  match issueRefusal s with
  | some r => .refused r
  | none => .next (readlRequest slave offset length s).resume

end Sys2Proof.Machine
end

