-- ==== Sys2Proof/Machine/Sync.lean ====
section
/-! DEFINITION. The SYNC operation (spec/42_sync.md). -/

namespace Sys2Proof.Machine

/-- The body of SYNC (R80): build, write, return. No `TpRead` is made (R82). -/
def syncBody (s : State) : State :=
  let (frame, s₁) := buildFrame Config.cmdSync syncPayload s
  match tpWrite frame s₁ with
  | (.ok, s₂) => s₂.finish .unit
  | (.error e, s₂) => s₂.raise (.transport e)

/-- SYNC (R80, R83), where it may be issued (R125). -/
def execSync (s : State) : Host.Outcome State Fault Refusal :=
  match issueRefusal s with
  | some r => .refused r
  | none => .next (syncBody s)

end Sys2Proof.Machine
end

