-- ==== Sys2Proof/Machine/Environment.lean ====
section
/-! DEFINITION. The inputs that are not host commands: what the transport does (R34, R139), closing (R132) and
creation (R130). -/

namespace Sys2Proof.Machine

/-- The transport after an input of its own (R34, R139). -/
def Transport.input (t : TransportInput) (tp : Transport) : Transport :=
  match t with
  | .receive bytes => { tp with rx := tp.rx ++ bytes }
  | .clear => { tp with rx := [] }
  | .writeFault f => { tp with writeFault := f }
  | .readFault f => { tp with readFault := f }

/-- The transport changes, and a READL that is blocked in `TpRead` goes on if that answers it (R104). With no READL
waiting it causes nothing in the CORE (R116). -/
def transportInput (t : TransportInput) (s : State) : State := { s with tp := s.tp.input t }.resume

/-- Closing the transport (R132). Without a report the instance is destroyed, which sends nothing; in the middle of
an operation no source defines that, so it is refused (log entry 19). With a report every access fails with it, the
blocked `TpRead` among them (R112, log entry 9). DESIGN CHOICE (log entry 22): the spec is silent on closing a closed
transport; here it is accepted and the last close decides (a destroyed instance stays destroyed, a second report
replaces the first error, a close without a report destroys an instance kept after a reported one). -/
def closeTransport (report : Option TransportError) (s : State) : Host.Outcome State Fault Refusal :=
  match report with
  | some e => .next { s with tp := { s.tp with closedError := some e } }.resume
  | none =>
    match s.phase with
    | .idle => .next { s with alive := false }
    | .await _ _ => .refused .closedInProgress

/-- Creation of an instance (R130): `SEQ = 0`, IDLE, nothing on the wire, the receive path as it is (log entry 20). It
is refused during an operation (R131) and on a transport that an instance still owns (R136). -/
def createInstance (s : State) : Host.Outcome State Fault Refusal :=
  match s.phase with
  | .await _ _ => .refused .resetInProgress
  | .idle =>
    if s.alive && s.tp.closedError.isNone then .refused .transportShared
    else .next { s with seq := Config.seqReset, alive := true, tp := { s.tp with closedError := none }, events := [] }

end Sys2Proof.Machine
end

