-- ==== Sys2Proof/Machine/Step.lean ====
section
/-! DEFINITION. One step takes the next input from outside. The CORE fetches no instructions (R32): the next
instruction is the command the host presents, the head of `inputs`. -/

namespace Sys2Proof.Machine

/-- One step. With no input the CORE waits: in IDLE for the host (R130), in AWAIT for the transport (R122, log
entry 6). A command is executed; anything else happens to the transport or to the instance. -/
def step (s : State) : Host.Outcome State Fault Refusal :=
  match s.inputs with
  | [] => .next s.resume
  | .command i :: rest => exec i { s with inputs := rest }
  | .transport t :: rest => .next (transportInput t { s with inputs := rest })
  | .close report :: rest => closeTransport report { s with inputs := rest }
  | .create :: rest => createInstance { s with inputs := rest }

/-- The host presents next the command that a table word stands for (log entry 11). A word that decodes to no
instruction can not be presented: the interface offers only SYNC and READL (R50). -/
def State.withFetchWord (s : State) (nbits w : Nat) : State :=
  match decodeTableWord nbits w with
  | some i => { s with inputs := .command i :: s.inputs }
  | none => s

end Sys2Proof.Machine
end

