-- ==== Sys2Proof/Safety.lean ====
section
/-! DEFINITION. The terms in which claims about the CORE are made: when a run is finished, which traces of
observable effects are legal, what a well-formed frame is, and the two comparisons of states that the
noninterference claims use. -/

namespace Sys2Proof.Safety

open Sys2Proof.Machine

/-! ## Issuing and finishing -/

/-- The host may issue an operation: the instance exists and no operation is in progress (R132, R134). -/
abbrev Ready (s : State) : Prop := s.alive = true ∧ s.phase = .idle

/-- Nothing keeps the transport from accepting the next write (R20). -/
abbrev WriteAccepted (s : State) : Prop := s.tp.closedError = none ∧ s.tp.writeFault = none

/-- The next write fails with `e`: the transport is closed and reports it, or it decided so (R20, R132). -/
abbrev WriteFails (s : State) (e : TransportError) : Prop :=
  s.tp.closedError = some e ∨ (s.tp.closedError = none ∧ s.tp.writeFault = some e)

/-- The run is finished: every input was taken and no operation is in progress. AWAIT is never final (R143). -/
abbrev Finished (s : State) : Prop := s.inputs = [] ∧ s.phase = .idle

/-- How many SYNCs the host presents before its first READL. DESIGN CHOICE (log entry 14): the spec does not say which
SYNCs count towards `SYNC_ROUNDS_REQUIRED` (R133, 92_eei_decisions.md D21, 93_implementation_defined.md U17). Here every
presented SYNC counts: also one whose write fails, and one presented before a close or a creation, thus to an earlier
instance. -/
def leadingSyncs : List Input → Nat
  | [] => 0
  | .command .sync :: rest => leadingSyncs rest + 1
  | .command (.readl _ _ _) :: _ => 0
  | _ :: rest => leadingSyncs rest

/-- The host's obligation of R133 to synchronise before it reads. The number is an open parameter without a value
(92_eei_decisions.md D21) and the CORE does not enforce it. DESIGN CHOICE (log entry 14): what counts is `leadingSyncs`,
once over the whole list of inputs, and the SYNCs are asked also of a host that presents no READL. -/
def HostSynchronises (inputs : List Input) : Prop := Config.syncRoundsRequired ≤ leadingSyncs inputs

/-! ## Legal traces -/

/-- The effects of one operation that ended, issued when `SEQ` was `q` (R35, R110, R113): a closed list. -/
inductive OpTrace (q : SeqNo) : Instr → List Event → Prop
  | syncDone : OpTrace q .sync [.seqChanged (q + 1), .tpWrite (encode q .sync) .ok, .result .unit]
  | syncUnsent (e : TransportError) :
      OpTrace q .sync
        [.seqChanged (q + 1), .tpWrite (encode q .sync) (.error e), .result (.error (.transport e))]
  | readlUnsent (a b n : Nat) (e : TransportError) :
      OpTrace q (.readl a b n)
        [.seqChanged (q + 1), .tpWrite (encode q (.readl a b n)) (.error e), .result (.error (.transport e))]
  | readlFailed (a b n : Nat) (e : TransportError) :
      OpTrace q (.readl a b n)
        [.seqChanged (q + 1), .tpWrite (encode q (.readl a b n)) .ok, .tpRead (n % 65536 + 1),
          .result (.error (.transport e))]
  | readlCorrupt (a b n : Nat) :
      OpTrace q (.readl a b n)
        [.seqChanged (q + 1), .tpWrite (encode q (.readl a b n)) .ok, .tpRead (n % 65536 + 1),
          .result (.error .crc)]
  | readlDone (a b n : Nat) (payload : List Byte) (h : payload.length = n % 65536) :
      OpTrace q (.readl a b n)
        [.seqChanged (q + 1), .tpWrite (encode q (.readl a b n)) .ok, .tpRead (n % 65536 + 1),
          .result (.payload payload)]

/-- The effects so far of a READL that is blocked in `TpRead` (R104, R122). -/
def pendingTrace (q : SeqNo) (a b n : Nat) : List Event :=
  [.seqChanged (q + 1), .tpWrite (encode q (.readl a b n)) .ok, .tpRead (n % 65536 + 1)]

/-- The traces an instance can show since its creation, with the `SEQ` and the phase it then has: one operation after
the other (R29, R30), the last one possibly blocked. -/
inductive Legal : List Event → SeqNo → Phase → Prop
  | fresh : Legal [] Config.seqReset .idle
  | ended {events : List Event} {q : SeqNo} {i : Instr} {tail : List Event}
      (h : Legal events q .idle) (op : OpTrace q i tail) : Legal (events ++ tail) (q + 1) .idle
  | blocked {events : List Event} {q : SeqNo} (h : Legal events q .idle) (a b n : Nat) :
      Legal (events ++ pendingTrace q a b n) (q + 1) (.await (encode q (.readl a b n)) (mask16 n))

/-- The invariant of an instance: its trace is legal and explains `SEQ`, the phase, FRAME and length'; a destroyed
instance has no operation in progress (R132). -/
def TraceInv (s : State) : Prop := Legal s.events s.seq s.phase ∧ (s.alive = false → s.phase = .idle)

/-- A CORE in AWAIT waits for a reason: the transport has no answer yet (R21, R94). -/
def WaitsForAReason (s : State) : Prop :=
  ∀ frame len, s.phase = .await frame len →
    s.tp.closedError = none ∧ s.tp.readFault = none ∧ s.tp.rx.length < len.toNat + 1

/-- The frames built, in order, whether or not the transport accepted them (R76, R78). -/
def framesOf : List Event → List (List Byte)
  | [] => []
  | .tpWrite f _ :: rest => f :: framesOf rest
  | _ :: rest => framesOf rest

/-! ## Frames (R55) -/

/-- A well-formed SYNC frame, in the words of R55. -/
abbrev IsSyncFrame (f : List Byte) : Prop :=
  f.length = 19 ∧ f.getD 0 0 = 0x55 ∧ f.getD 1 0 &&& 0x3F = 0x01 ∧
    (f.drop 2).take 16 = Config.syncMarker ++ [0x01] ∧ f.getD 18 0 = crc8 (f.take 18)

/-- A well-formed READL frame, in the words of R55. -/
abbrev IsReadlFrame (f : List Byte) : Prop :=
  f.length = 9 ∧ f.getD 0 0 = 0x55 ∧ f.getD 1 0 &&& 0x3F = 0x3C ∧ f.getD 8 0 = crc8 (f.take 8)

/-- `(f[k] << 8) | f[k+1]` (R55). -/
abbrev wordAt (f : List Byte) (k : Nat) : Nat := ((f.getD k 0).toNat <<< 8) ||| (f.getD (k + 1) 0).toNat

/-! ## Comparing states -/

/-- The next state of an outcome, if there is one. -/
def nextOf : Host.Outcome State Fault Refusal → Option State
  | .next t => some t
  | _ => none

/-- An outcome with its next state changed by `g`. -/
def mapNext (g : State → State) : Host.Outcome State Fault Refusal → Host.Outcome State Fault Refusal
  | .next t => .next (g t)
  | .fault r => .fault r
  | .refused r => .refused r

/-- Renaming the transport's errors (R112: the CORE never inspects them), in an answer to a write. -/
def renameAnswer (ρ : TransportError → TransportError) : WriteAnswer → WriteAnswer
  | .ok => .ok
  | .error e => .error (ρ e)

/-- Renaming in a result. -/
def renameResult (ρ : TransportError → TransportError) : OpResult → OpResult
  | .error (.transport e) => .error (.transport (ρ e))
  | r => r

/-- Renaming in an observable effect. -/
def renameEvent (ρ : TransportError → TransportError) : Event → Event
  | .tpWrite f a => .tpWrite f (renameAnswer ρ a)
  | .result r => .result (renameResult ρ r)
  | e => e

/-- Renaming in what the transport will answer. -/
def renameTransport (ρ : TransportError → TransportError) (tp : Transport) : Transport :=
  { rx := tp.rx, closedError := tp.closedError.map ρ, writeFault := tp.writeFault.map ρ,
    readFault := tp.readFault.map ρ }

/-- Renaming in an input. -/
def renameInput (ρ : TransportError → TransportError) : Input → Input
  | .transport (.writeFault f) => .transport (.writeFault (f.map ρ))
  | .transport (.readFault f) => .transport (.readFault (f.map ρ))
  | .close r => .close (r.map ρ)
  | x => x

/-- Renaming everywhere in a state. -/
def renameErrors (ρ : TransportError → TransportError) (s : State) : State :=
  { s with tp := renameTransport ρ s.tp, inputs := s.inputs.map (renameInput ρ),
           events := s.events.map (renameEvent ρ) }

end Sys2Proof.Safety
end

