-- ==== Sys2Proof/Certificates/Slice0/Obligations.lean ====
section
/-! DEFINITION. The statements for the provers. Each says in its docstring which rule of spec/ it formalises, or, where
it rests on a choice of the model, which log entry. -/

open Sys2Proof Sys2Proof.Machine Sys2Proof.Safety

/-! ## The CRC engine (spec/40_crc8.md) -/

/-- R65: the fixed points, with the table entries they come from. -/
def Obligations.CrcFixedPoints : Prop :=
  (crc8 [] = 0xFF ^^^ 0xFF ∧ crc8 [] = 0x00) ∧
  (crc8 [0x00] = crcEntry 0xFF ^^^ 0xFF ∧ crc8 [0x00] = 0x3B) ∧
  (crc8 [0xFF] = crcEntry 0x00 ^^^ 0xFF ∧ crc8 [0xFF] = 0xFF) ∧
  crc8 [0x55] = 0x8C ∧
  crc8 [0x31, 0x32, 0x33, 0x34, 0x35, 0x36, 0x37, 0x38, 0x39] = 0x4B

/-- R61: the byte update is the loop of the rule, written here over natural numbers, and depends on `reg ^ b` only. That
the document's four parameters mean this loop is no statement of the source: the spec marks it [derived] and [from
general knowledge, not in source] (93_implementation_defined.md G3), and the model presumes it (log entry 13). -/
def Obligations.UpdIsTheShiftLoop : Prop :=
  ∀ reg b : Byte,
    (upd reg b).toNat =
      Nat.repeat
        (fun r => if r.testBit 7 then ((r <<< 1) &&& 0xFF) ^^^ 0x1D else (r <<< 1) &&& 0xFF)
        8 (reg.toNat ^^^ b.toNat) ∧
    upd reg b = upd (reg ^^^ b) 0 ∧ upd reg b = upd 0 (reg ^^^ b)

/-- R63: the printed listing is `T`, `T` drives the byte update, and `T` is a permutation with the entries named. -/
def Obligations.CrcListingIsTheTable : Prop :=
  crcListing.length = 256 ∧
  (∀ i : Byte, crcListing[i.toNat]? = some (crcEntry i)) ∧
  (∀ i : Byte, crcEntry i = upd 0x00 i) ∧
  (∀ reg b : Byte, upd reg b = crcEntry (reg ^^^ b)) ∧
  Function.Bijective crcEntry ∧
  crcEntry 0x00 = 0x00 ∧ crcEntry 0x01 = 0x1D ∧ crcEntry 0x80 = 0x26 ∧ crcEntry 0xFF = 0xC4

/-- R64: the streaming law, for the register, for `crc8` and for the extended check; continuing from the CRC byte or
from 0xFF instead of the register is wrong for some input. -/
def Obligations.CrcStreams : Prop :=
  (∀ (a b : List Byte) (reg : Byte), crcRun reg (a ++ b) = crcRun (crcRun reg a) b) ∧
  (∀ a b : List Byte, crc8 (a ++ b) = crcRun (crcRun 0xFF a) b ^^^ 0xFF) ∧
  (∀ frame payload : List Byte, extendedCrc frame payload = crcContinue (crcRun 0xFF frame) payload) ∧
  (∃ frame payload : List Byte, extendedCrc frame payload ≠ crcContinue (crc8 frame) payload ∧
    extendedCrc frame payload ≠ crcContinue 0xFF payload)

/-- R66: the residue law and its consequences. Every frame the CORE builds has the form it speaks of, so the CRC byte
expected in a response is a function of the response payload alone. -/
def Obligations.CrcResidue : Prop :=
  (∀ r : Byte, upd r (r ^^^ 0xFF) = crcEntry 0xFF ∧ crcEntry 0xFF = 0xC4) ∧
  (∀ body : List Byte, crcRun 0xFF (body ++ [crc8 body]) = 0xC4 ∧ crc8 (body ++ [crc8 body]) = 0x3B ∧
    ∀ payload : List Byte, crc8 ((body ++ [crc8 body]) ++ payload) = crcRun 0xC4 payload ^^^ 0xFF) ∧
  (∀ (code : Code) (p : List Byte) (s : State), ∃ body, (buildFrame code p s).1 = body ++ [crc8 body]) ∧
  (∀ (q q' : SeqNo) (i i' : Instr) (payload : List Byte),
    extendedCrc (encode q i) payload = extendedCrc (encode q' i') payload)

/-- R63, R67: the table-driven engine over the printed listing equals the bit-wise one on every input. -/
def Obligations.TableDrivenCrcIsCrc : Prop :=
  ∀ s : List Byte, crc8ByTable s = crc8 s

/-- R77 (`crc8` distinguishes inputs that differ in a single byte), 95_test_vectors.md V-CRC-P4. -/
def Obligations.CrcDetectsAByteChange : Prop :=
  ∀ (a b : List Byte) (x y : Byte), x ≠ y → crc8 (a ++ x :: b) ≠ crc8 (a ++ y :: b)

/-! ## The frame encoder and the sequence counter (spec/30_encoding.md, 41_frame_encoder.md) -/

/-- R42: the command byte as a number and its two fields; `buildFrame` puts it at index 1 with the value `SEQ` has then. -/
def Obligations.CommandByteFields : Prop :=
  ∀ (q : SeqNo) (code : Code),
    (cmdByte q code).toNat = (q.toNat <<< 6) ||| code.toNat ∧
    seqField (cmdByte q code) = q ∧ codeField (cmdByte q code) = code ∧
    ∀ (payload : List Byte) (s : State), s.seq = q → (buildFrame code payload s).1[1]? = some (cmdByte q code)

/-- R70 to R74, R79: what `buildFrame` returns and does; it touches nothing but `SEQ` (and the model's record of it). -/
def Obligations.BuildFrameResult : Prop :=
  ∀ (code : Code) (payload : List Byte) (s : State),
    let f := (buildFrame code payload s).1
    let t := (buildFrame code payload s).2
    let body := [0x55, BitVec.ofNat 8 (s.seq.toNat * 64 + code.toNat)] ++ payload
    f = body ++ [crc8 body] ∧ f.length = payload.length + 3 ∧
    t.seq.toNat = (s.seq.toNat + 1) % 4 ∧
    t.phase = s.phase ∧ t.alive = s.alive ∧ t.tp = s.tp ∧ t.inputs = s.inputs ∧
    t.events = s.events ++ [.seqChanged t.seq]

/-- R77: two frames built one after the other from the same code and payload differ in exactly the command byte and the
CRC byte; the sequence fields differ by 1 modulo 4 and the codes are equal. -/
def Obligations.ConsecutiveFramesDifferInTwoBytes : Prop :=
  ∀ (code : Code) (payload : List Byte) (s : State),
    let f := (buildFrame code payload s).1
    let g := (buildFrame code payload (buildFrame code payload s).2).1
    f.length = g.length ∧
    (∀ k, k < f.length → (f.getD k 0 ≠ g.getD k 0 ↔ k = 1 ∨ k = f.length - 1)) ∧
    seqField (g.getD 1 0) = seqField (f.getD 1 0) + 1 ∧
    codeField (g.getD 1 0) = codeField (f.getD 1 0)

/-- R46: the six payload bytes of a READL frame, most significant byte of each masked operand first; R47: its trailer
covers the eight bytes before it. -/
def Obligations.ReadlRequestBytes : Prop :=
  ∀ (q : SeqNo) (slave offset length : Nat),
    let body : List Byte :=
      [0x55, BitVec.ofNat 8 (q.toNat * 64 + 0x3C),
       BitVec.ofNat 8 (slave % 65536 / 256), BitVec.ofNat 8 (slave % 65536 % 256),
       BitVec.ofNat 8 (offset % 65536 / 256), BitVec.ofNat 8 (offset % 65536 % 256),
       BitVec.ofNat 8 (length % 65536 / 256), BitVec.ofNat 8 (length % 65536 % 256)]
    encode q (.readl slave offset length) = body ++ [crc8 body]

/-- R81: the four SYNC frames and the value of `SEQ` after each. -/
def Obligations.SyncFrames : Prop :=
  ∀ s : State,
    let f := (buildFrame Config.cmdSync syncPayload s).1
    let q := (buildFrame Config.cmdSync syncPayload s).2.seq
    (s.seq = 0 → q = 1 ∧ f = [0x55, 0x01, 0x1F, 0x2E, 0x3D, 0x4C, 0x5B, 0x6A, 0x79, 0x88, 0x97, 0xA6, 0xB5, 0xC4,
      0xD3, 0xE2, 0xF1, 0x01, 0xE6]) ∧
    (s.seq = 1 → q = 2 ∧ f = [0x55, 0x41, 0x1F, 0x2E, 0x3D, 0x4C, 0x5B, 0x6A, 0x79, 0x88, 0x97, 0xA6, 0xB5, 0xC4,
      0xD3, 0xE2, 0xF1, 0x01, 0xCC]) ∧
    (s.seq = 2 → q = 3 ∧ f = [0x55, 0x81, 0x1F, 0x2E, 0x3D, 0x4C, 0x5B, 0x6A, 0x79, 0x88, 0x97, 0xA6, 0xB5, 0xC4,
      0xD3, 0xE2, 0xF1, 0x01, 0xB2]) ∧
    (s.seq = 3 → q = 0 ∧ f = [0x55, 0xC1, 0x1F, 0x2E, 0x3D, 0x4C, 0x5B, 0x6A, 0x79, 0x88, 0x97, 0xA6, 0xB5, 0xC4,
      0xD3, 0xE2, 0xF1, 0x01, 0x98])

/-! ## Encoding and decoding -/

/-- R40 to R47, R55: decoding the frame of a well-formed command gives the sequence number and the command back. -/
def Obligations.DecodeEncode : Prop :=
  ∀ (q : SeqNo) (i : Instr), i.wf = true → decodeFrame (encode q i) = .ok ⟨q, i⟩

/-- R40 to R47, R55: whatever the decoder reads, the encoder writes back byte for byte, and its operands are in range;
so no two frames say the same. -/
def Obligations.EncodeDecode : Prop :=
  ∀ (f : List Byte) (r : Request), decodeFrame f = .ok r → encode r.seq r.instr = f ∧ r.instr.wf = true

/-- R55: the decoder accepts exactly the well-formed frames of the rule, with the fields the rule names. -/
def Obligations.DecoderAcceptsWellFormedFrames : Prop :=
  (∀ (f : List Byte) (q : SeqNo),
    decodeFrame f = .ok ⟨q, .sync⟩ ↔ IsSyncFrame f ∧ q.toNat = (f.getD 1 0).toNat >>> 6) ∧
  (∀ (f : List Byte) (q : SeqNo) (slave offset length : Nat),
    decodeFrame f = .ok ⟨q, .readl slave offset length⟩ ↔
      IsReadlFrame f ∧ q.toNat = (f.getD 1 0).toNat >>> 6 ∧
      slave = wordAt f 2 ∧ offset = wordAt f 4 ∧ length = wordAt f 6)

/-- R50: a frame with one of the other 62 codes is rejected by name, and no instruction's frame has one. -/
def Obligations.ReservedCodesHaveNoMeaning : Prop :=
  (∀ (cmd : Byte) (rest : List Byte), rest ≠ [] → codeField cmd ≠ 0x01 → codeField cmd ≠ 0x3C →
    decodeFrame (0x55 :: cmd :: rest) = .error (.reservedCode (codeField cmd))) ∧
  (∀ (q : SeqNo) (i : Instr), codeField ((encode q i).getD 1 0) = 0x01 ∨ codeField ((encode q i).getD 1 0) = 0x3C)

/-- R51, R91: only the operands modulo 65536 matter, to the frame and to the whole operation. -/
def Obligations.OperandsAreTruncated : Prop :=
  ∀ (slave offset length : Nat),
    (∀ q : SeqNo, encode q (.readl slave offset length) =
      encode q (.readl (slave % 65536) (offset % 65536) (length % 65536))) ∧
    (∀ s : State, exec (.readl slave offset length) s =
      exec (.readl (slave % 65536) (offset % 65536) (length % 65536)) s)

/-- A few frames and table words written out byte by byte from R81, S1 and spec/opcode_table.json decode to what they
stand for. The last two clauses rest on the model's choice of how a word of the table is laid out, operand bytes that
the word does not have reading as zero (log entry 11): R53 gives a command no binary form. -/
def Obligations.WrittenOutWordsDecode : Prop :=
  decodeFrame [0x55, 0x41, 0x1F, 0x2E, 0x3D, 0x4C, 0x5B, 0x6A, 0x79, 0x88, 0x97, 0xA6, 0xB5, 0xC4, 0xD3, 0xE2, 0xF1,
    0x01, 0xCC] = .ok ⟨1, .sync⟩ ∧
  decodeFrame [0x55, 0x3C, 0x00, 0x00, 0x00, 0x00, 0x00, 0x04, 0x09] = .ok ⟨0, .readl 0 0 4⟩ ∧
  decodeFrame [0x55, 0x7C, 0x12, 0x34, 0xAB, 0xCD, 0x00, 0x02, 0xE7] = .ok ⟨1, .readl 0x1234 0xABCD 2⟩ ∧
  decodeTableWord 8 0x01 = some .sync ∧ decodeTableWord 8 0x3C = some (.readl 0 0 0)

/-! ## Steps -/

/-- R32, R53: a step runs the command that the host presents next, once, on the state without it. -/
def Obligations.StepRunsThePresentedCommand : Prop :=
  ∀ (s : State) (i : Instr) (rest : List Input), s.inputs = .command i :: rest →
    step s = exec i { s with inputs := rest }

/-- The model's choice (log entry 11): a word of the table that decodes to an instruction is presented as that
instruction, and the next step runs it. -/
def Obligations.StepRunsTheDecodedWord : Prop :=
  ∀ (s : State) (nbits w : Nat) (i : Instr), decodeTableWord nbits w = some i →
    step (s.withFetchWord nbits w) = exec i s

/-- R130 (after creation the CORE waits for the host's first operation): in IDLE, with no input, a step changes
nothing. -/
def Obligations.IdleCoreWaits : Prop :=
  ∀ s : State, s.phase = .idle → s.inputs = [] → step s = .next s

/-- R33, R82, R116: bytes that arrive while no READL waits cause nothing but that they wait behind those already there;
SEQ, the phase and the record are unchanged. -/
def Obligations.StrayBytesOnlyWait : Prop :=
  ∀ (s : State) (bytes : List Byte) (rest : List Input), s.phase = .idle →
    s.inputs = .transport (.receive bytes) :: rest →
    step s = .next { s with inputs := rest, tp := { s.tp with rx := s.tp.rx ++ bytes } }

/-! ## SYNC (spec/42_sync.md) -/

/-- R80, R82, R84: SYNC sends its 19 bytes, returns unit, advances `SEQ` and does nothing else; the receive path stays
as it is. -/
def Obligations.SyncCompletes : Prop :=
  ∀ s : State, Ready s → WriteAccepted s →
    let body : List Byte := [0x55, BitVec.ofNat 8 (0x01 ||| (s.seq.toNat <<< 6)),
      0x1F, 0x2E, 0x3D, 0x4C, 0x5B, 0x6A, 0x79, 0x88, 0x97, 0xA6, 0xB5, 0xC4, 0xD3, 0xE2, 0xF1, 0x01]
    exec .sync s = .next { s with
      seq := s.seq + 1
      events := s.events ++ [.seqChanged (s.seq + 1), .tpWrite (body ++ [crc8 body]) .ok, .result .unit] }

/-- R85: `n` SYNCs one after the other write the encoder's frames for consecutive sequence numbers and advance `SEQ` by
`n` modulo 4; nothing of the transport changes. -/
def Obligations.SyncsCountModFour : Prop :=
  ∀ (n : Nat) (s : State) (rest : List Input), Ready s → WriteAccepted s →
    s.inputs = List.replicate n (.command .sync) ++ rest →
    ∃ t : State, Host.Core.run Sys2Proof.core n s = .next t ∧
      t.seq.toNat = (s.seq.toNat + n) % 4 ∧ Ready t ∧ t.tp = s.tp ∧ t.inputs = rest ∧
      framesOf t.events = framesOf s.events ++
        (List.range n).map (fun k => encode (s.seq + BitVec.ofNat 2 k) .sync)

/-! ## READL (spec/43_read_logical.md) -/

/-- R98 (with R91 to R96): a complete response whose last byte is the extended CRC ends READL with exactly the payload
bytes in receipt order; exactly `length' + 1` bytes leave the receive path. -/
def Obligations.ReadlReturnsThePayload : Prop :=
  ∀ (s : State) (slave offset length : Nat) (payload rest : List Byte) (c : Byte),
    Ready s → WriteAccepted s → s.tp.readFault = none →
    s.tp.rx = payload ++ c :: rest → payload.length = length % 65536 →
    crc8 (encode s.seq (.readl slave offset length) ++ payload) = c →
    exec (.readl slave offset length) s = .next { s with
      seq := s.seq + 1
      tp := { s.tp with rx := rest }
      events := s.events ++ [.seqChanged (s.seq + 1), .tpWrite (encode s.seq (.readl slave offset length)) .ok,
        .tpRead (length % 65536 + 1), .result (.payload payload)] }

/-- R97, R111: any other last byte ends READL with `CRCError` and no payload byte; nothing is retried or sent, and
`SEQ` keeps the value it got when the frame was built. -/
def Obligations.ReadlRaisesCrcError : Prop :=
  ∀ (s : State) (slave offset length : Nat) (payload rest : List Byte) (c : Byte),
    Ready s → WriteAccepted s → s.tp.readFault = none →
    s.tp.rx = payload ++ c :: rest → payload.length = length % 65536 →
    crc8 (encode s.seq (.readl slave offset length) ++ payload) ≠ c →
    exec (.readl slave offset length) s = .next { s with
      seq := s.seq + 1
      tp := { s.tp with rx := rest }
      events := s.events ++ [.seqChanged (s.seq + 1), .tpWrite (encode s.seq (.readl slave offset length)) .ok,
        .tpRead (length % 65536 + 1), .result (.error .crc)] }

/-- R94, R112: when the `TpRead` fails, READL ends with the transport's own error. That the receive path keeps its bytes
is the model's choice (log entry 3). -/
def Obligations.ReadlFailsWithTheReadsError : Prop :=
  ∀ (s : State) (slave offset length : Nat) (e : TransportError),
    Ready s → WriteAccepted s → s.tp.readFault = some e →
    exec (.readl slave offset length) s = .next { s with
      seq := s.seq + 1
      tp := { s.tp with readFault := none }
      events := s.events ++ [.seqChanged (s.seq + 1), .tpWrite (encode s.seq (.readl slave offset length)) .ok,
        .tpRead (length % 65536 + 1), .result (.error (.transport e))] }

/-- R94, R104: without an answer READL blocks in AWAIT with FRAME and length', having asked for `length' + 1` bytes; no
byte is taken. -/
def Obligations.ReadlAwaitsTheResponse : Prop :=
  ∀ (s : State) (slave offset length : Nat),
    Ready s → WriteAccepted s → s.tp.readFault = none → s.tp.rx.length < length % 65536 + 1 →
    exec (.readl slave offset length) s = .next { s with
      seq := s.seq + 1
      phase := .await (encode s.seq (.readl slave offset length)) (BitVec.ofNat 16 length)
      events := s.events ++ [.seqChanged (s.seq + 1), .tpWrite (encode s.seq (.readl slave offset length)) .ok,
        .tpRead (length % 65536 + 1)] }

/-- R83, R93, R112, R113, R132: when the `TpWrite` fails, either operation ends with the transport's own error, whatever
the transport would have answered to a read; `SEQ` has advanced and no `TpRead` is made. Two things are the model's
choice: that the instance is kept after a reported close and the closed transport goes on failing (first clause, log
entry 9; R132 calls such an operation outside the contract), and that a decided failure is used up by the write it fails
(second clause, log entry 3). -/
def Obligations.FailedWriteEndsTheOperation : Prop :=
  ∀ (i : Instr) (s : State) (e : TransportError), Ready s →
    (s.tp.closedError = some e → exec i s = .next { s with
      seq := s.seq + 1
      events := s.events ++ [.seqChanged (s.seq + 1), .tpWrite (encode s.seq i) (.error e),
        .result (.error (.transport e))] }) ∧
    (s.tp.closedError = none ∧ s.tp.writeFault = some e → exec i s = .next { s with
      seq := s.seq + 1
      tp := { s.tp with writeFault := none }
      events := s.events ++ [.seqChanged (s.seq + 1), .tpWrite (encode s.seq i) (.error e),
        .result (.error (.transport e))] })

/-- R104, second half: when bytes arrive that complete the response, the blocked READL ends with the payload or with
`CRCError`, by the CRC over FRAME and the payload (R96). -/
def Obligations.BlockedReadCompletes : Prop :=
  ∀ (s : State) (frame : List Byte) (len : HalfWord) (bytes payload rest : List Byte) (c : Byte) (ins : List Input),
    s.phase = .await frame len → s.tp.closedError = none → s.tp.readFault = none →
    s.inputs = .transport (.receive bytes) :: ins →
    s.tp.rx ++ bytes = payload ++ c :: rest → payload.length = len.toNat →
    step s = .next { s with
      phase := .idle
      inputs := ins
      tp := { s.tp with rx := rest }
      events := s.events ++ [.result (if crc8 (frame ++ payload) = c then .payload payload else .error .crc)] }

/-- R104, R112: when the outstanding `TpRead` fails, or the transport closes and reports an error, the blocked READL ends
with that error. Two things are the model's choice: that the failed read takes no byte and uses the failure up (first
clause, log entry 3), and that a close with a report fails the read and keeps the instance (second clause, log entry 9;
on a transport closed already, log entry 22). -/
def Obligations.BlockedReadFails : Prop :=
  ∀ (s : State) (frame : List Byte) (len : HalfWord) (e : TransportError) (ins : List Input),
    s.phase = .await frame len →
    (s.tp.closedError = none ∧ s.inputs = .transport (.readFault (some e)) :: ins → step s = .next { s with
      phase := .idle
      inputs := ins
      tp := { s.tp with readFault := none }
      events := s.events ++ [.result (.error (.transport e))] }) ∧
    (s.inputs = .close (some e) :: ins → step s = .next { s with
      phase := .idle
      inputs := ins
      tp := { s.tp with closedError := some e }
      events := s.events ++ [.result (.error (.transport e))] })

/-- R122: a READL whose `TpRead` is never answered stays in AWAIT for ever, with no result. That waiting is a step that
changes nothing is the model's choice (log entry 6). -/
def Obligations.UnansweredReadNeverEnds : Prop :=
  ∀ (k : Nat) (s : State) (frame : List Byte) (len : HalfWord),
    s.phase = .await frame len → s.inputs = [] → s.tp.closedError = none → s.tp.readFault = none →
    s.tp.rx.length ≤ len.toNat →
    Host.Core.run Sys2Proof.core k s = .next s

/-- R104 (the split adds no behaviour): it makes no difference whether bytes arrive before a READL is issued or while it
is blocked. Where a failure of the read is decided, this rests on the model's choice that a failed read takes no byte
and that the failure comes before waiting bytes (log entry 3). -/
def Obligations.SplittingReadlAddsNothing : Prop :=
  ∀ (s : State) (slave offset length : Nat) (bytes : List Byte) (rest : List Input), Ready s →
    Host.Core.run Sys2Proof.core 2
      { s with inputs := .command (.readl slave offset length) :: .transport (.receive bytes) :: rest } =
    Host.Core.run Sys2Proof.core 2
      { s with inputs := .transport (.receive bytes) :: .command (.readl slave offset length) :: rest }

/-- R100: the request of a read of length' = 0 carries `00 00`; the read takes exactly one byte and succeeds, with the empty sequence, iff that byte is 0x3B. -/
def Obligations.ZeroLengthRead : Prop :=
  ∀ (s : State) (slave offset length : Nat) (b : Byte) (rest : List Byte),
    Ready s → WriteAccepted s → s.tp.readFault = none → length % 65536 = 0 → s.tp.rx = b :: rest →
    ((encode s.seq (.readl slave offset length)).drop 6).take 2 = [0x00, 0x00] ∧
    crc8 (encode s.seq (.readl slave offset length)) = 0x3B ∧
    exec (.readl slave offset length) s = .next { s with
      seq := s.seq + 1
      tp := { s.tp with rx := rest }
      events := s.events ++ [.seqChanged (s.seq + 1), .tpWrite (encode s.seq (.readl slave offset length)) .ok,
        .tpRead 1, .result (if b = 0x3B then .payload [] else .error .crc)] }

/-- R101: length' = 0xFFFF asks for 65536 bytes and, on a good CRC, returns the first 65535; an operand 0x10000 behaves
as 0 and 0x10004 as 4. -/
def Obligations.LongestRead : Prop :=
  (∀ (s : State) (slave offset : Nat) (payload rest : List Byte),
    Ready s → WriteAccepted s → s.tp.readFault = none → payload.length = 65535 →
    s.tp.rx = payload ++ crc8 (encode s.seq (.readl slave offset 0xFFFF) ++ payload) :: rest →
    exec (.readl slave offset 0xFFFF) s = .next { s with
      seq := s.seq + 1
      tp := { s.tp with rx := rest }
      events := s.events ++ [.seqChanged (s.seq + 1), .tpWrite (encode s.seq (.readl slave offset 0xFFFF)) .ok,
        .tpRead 65536, .result (.payload payload)] }) ∧
  (∀ (s : State) (slave offset : Nat), exec (.readl slave offset 0x10000) s = exec (.readl slave offset 0) s) ∧
  (∀ (s : State) (slave offset : Nat), exec (.readl slave offset 0x10004) s = exec (.readl slave offset 4) s)

/-- R96, R97 with R63 (95_test_vectors.md V-CRC-P5): if a response is accepted, the same response with any one byte
changed, in the payload or in the CRC byte, ends the same READL with `CRCError`. -/
def Obligations.OneWrongByteIsDetected : Prop :=
  ∀ (s t : State) (slave offset length : Nat) (a b rest p : List Byte) (x y : Byte),
    x ≠ y → s.tp.rx = a ++ x :: (b ++ rest) → (a ++ x :: b).length = length % 65536 + 1 →
    exec (.readl slave offset length) s = .next t → t.events.getLast? = some (.result (.payload p)) →
    exec (.readl slave offset length) { s with tp := { s.tp with rx := a ++ y :: (b ++ rest) } } = .next { t with
      events := s.events ++ [.seqChanged (s.seq + 1), .tpWrite (encode s.seq (.readl slave offset length)) .ok,
        .tpRead (length % 65536 + 1), .result (.error .crc)] }

/-! ## Every operation -/

/-- R143 and 60_exceptions.md R110: an operation that may be issued always has a next state: it has ended and its result
is delivered, or it is a READL blocked in `TpRead`. -/
def Obligations.IssuedOperationsEndOrBlock : Prop :=
  ∀ (i : Instr) (s : State), Ready s → ∃ t : State, exec i s = .next t ∧
    ((t.phase = .idle ∧ ∃ r, t.events.getLast? = some (.result r)) ∨
     (∃ f n, t.phase = .await f n ∧ t.events.getLast? = some (.tpRead (n.toNat + 1))))

/-- R78: whatever the outcome, `SEQ` has advanced by one; the advance comes before the frame, which carries the old
value, is handed to the transport, and `SEQ` changes no second time. -/
def Obligations.EveryOperationAdvancesSeq : Prop :=
  ∀ (i : Instr) (s t : State), exec i s = .next t →
    t.seq.toNat = (s.seq.toNat + 1) % 4 ∧
    ∃ (a : WriteAnswer) (rest : List Event),
      t.events = s.events ++ .seqChanged t.seq :: .tpWrite (encode s.seq i) a :: rest ∧
      ∀ q, Event.seqChanged q ∉ rest

/-- R10, R74, R131: a step moves `SEQ` by running a command, by one, and sets it by creating an instance, to 0; nothing
else moves it. -/
def Obligations.OnlyOperationsMoveSeq : Prop :=
  ∀ s t : State, step s = .next t →
    t.seq = match s.inputs with
      | .command _ :: _ => s.seq + 1
      | .create :: _ => 0
      | _ => s.seq

/-- R35, R110, R113: the effects of an operation that ended are one of the closed list of `OpTrace`; those of a READL
that blocks are its write and its read request. The frames have 19 and 9 bytes. -/
def Obligations.OperationEffectsAreTheClosedList : Prop :=
  (∀ (i : Instr) (s t : State), exec i s = .next t → ∃ tail, t.events = s.events ++ tail ∧
    ((t.phase = .idle ∧ OpTrace s.seq i tail) ∨
     (∃ a b n, i = .readl a b n ∧ t.phase = .await (encode s.seq i) (BitVec.ofNat 16 n) ∧
       tail = pendingTrace s.seq a b n))) ∧
  (∀ q : SeqNo, (encode q .sync).length = 19) ∧
  (∀ (q : SeqNo) (a b n : Nat), (encode q (.readl a b n)).length = 9)

/-- The frame of both operations (R12, R33, R36, R82, R84): the instance, the host's further inputs and the transport's
state of closure are unchanged, the record only grows, and the receive path loses either nothing or, for READL only,
exactly `length' + 1` bytes at its head; SYNC leaves the transport's answer to a read alone. Three clauses rest on the
model's choice in log entry 3: that a failed read loses nothing, and that a decided failure is used up by the write, or
by the read, that it fails (on a transport that is not closed; a closed one keeps both, log entry 9). -/
def Obligations.OperationFrame : Prop :=
  ∀ (i : Instr) (s t : State), exec i s = .next t →
    t.alive = s.alive ∧ t.inputs = s.inputs ∧ t.tp.closedError = s.tp.closedError ∧
    (∃ tail, t.events = s.events ++ tail) ∧
    (∃ taken, s.tp.rx = taken ++ t.tp.rx ∧
      (taken = [] ∨ ∃ a b n, i = .readl a b n ∧ taken.length = n % 65536 + 1)) ∧
    (i = .sync → t.tp.rx = s.tp.rx ∧ t.tp.readFault = s.tp.readFault ∧ t.phase = .idle) ∧
    t.tp.writeFault = (if s.tp.closedError = none then none else s.tp.writeFault) ∧
    (i ≠ .sync → t.tp.readFault = if WriteAccepted s then none else s.tp.readFault)

/-! ## Errors, refusals, lifetime (spec/60_exceptions.md, 70_reset_and_hazards.md) -/

/-- R125, R131, R132, R134, R136: exactly when a step of the model is refused, and by which name. Each of the five cases
is outside the contract, but not all that is outside it is refused. Four things are the model's choice: a close without
a report during an operation is refused (log entry 19); an operation after a close that was reported is not refused but
runs and fails (log entry 9, where R125 and R132 put it outside the contract); and a creation over an instance whose
transport has reported its close is not refused (log entry 20, which is why the third case asks for a transport not
closed); and a close of a transport closed already is not refused for that (log entry 22). -/
def Obligations.RefusedInExactlyFiveCases : Prop :=
  ∀ (s : State) (r : Refusal), step s = .refused r ↔
    (r = .instanceDestroyed ∧ s.alive = false ∧ ∃ i rest, s.inputs = .command i :: rest) ∨
    (r = .operationInProgress ∧ s.alive = true ∧ (∃ f n, s.phase = .await f n) ∧
      ∃ i rest, s.inputs = .command i :: rest) ∨
    (r = .transportShared ∧ s.alive = true ∧ s.phase = .idle ∧ s.tp.closedError = none ∧
      ∃ rest, s.inputs = .create :: rest) ∨
    (r = .resetInProgress ∧ (∃ f n, s.phase = .await f n) ∧ ∃ rest, s.inputs = .create :: rest) ∨
    (r = .closedInProgress ∧ (∃ f n, s.phase = .await f n) ∧ ∃ rest, s.inputs = .close none :: rest)

/-- R130, R132: after the transport was closed, creating an instance starts with `SEQ = 0` and IDLE and touches the wire
not at all. That the receive path and the decided failures stay is the model's choice (log entry 20),
and so is, for a transport that was closed before, that it may be closed again (log entry 22). -/
def Obligations.CreationStartsAfresh : Prop :=
  ∀ (s : State) (rest : List Input), s.phase = .idle → s.inputs = .close none :: .create :: rest →
    Host.Core.run Sys2Proof.core 2 s = .next { s with
      seq := 0
      alive := true
      tp := { s.tp with closedError := none }
      inputs := rest
      events := [] }

/-- What creation leaves. `SEQ`, the phase and the instance are as R18 and R130 say; that the transport is not closed is
the model's choice (log entry 4), for R18 calls the transport's state at creation unspecified. -/
def Obligations.ResetState : Prop :=
  State.reset.seq = 0 ∧ State.reset.phase = .idle ∧ State.reset.alive = true ∧ State.reset.tp.closedError = none

/-- R11: what an operation does depends on `SEQ`, on its operands and on what the transport answers, and on nothing else:
not on what went before (the record) nor on what the host or the environment will do later. -/
def Obligations.HistoryDoesNotMatter : Prop :=
  ∀ (i : Instr) (s s' : State),
    s'.seq = s.seq → s'.phase = s.phase → s'.alive = s.alive → s'.tp = s.tp →
    (∀ t, exec i s = .next t → ∃ tail, t.events = s.events ++ tail ∧
      exec i s' = .next { t with inputs := s'.inputs, events := s'.events ++ tail }) ∧
    (∀ r, exec i s = .refused r → exec i s' = .refused r)

/-- R112: the CORE never inspects a transport error and never converts it: renaming the errors everywhere, by any
function, renames them in the outcome of every step and changes nothing else. -/
def Obligations.TransportErrorsAreNeverInspected : Prop :=
  ∀ (ρ : TransportError → TransportError) (s : State),
    step (renameErrors ρ s) = mapNext (renameErrors ρ) (step s)

/-! ## Invariants -/

/-- The trace invariant holds at reset (R18). -/
def Obligations.TraceInvAtReset : Prop := TraceInv State.reset

/-- Every step from every state with the trace invariant keeps it: at any time the observable effects since creation are
operations of the closed list one after the other, the last one possibly blocked, and they explain `SEQ`, the phase,
FRAME and length' (R29, R30, R35, R76, R78, R110, R113, R131). -/
def Obligations.TraceInvKept : Prop :=
  ∀ s t : State, TraceInv s → step s = .next t → TraceInv t

/-- The waiting invariant holds at reset: if the CORE were in AWAIT there, the transport would have no answer yet. It says
nothing of which phase reset leaves (IDLE by R18, which is `ResetState`): the model's choice of a transport that is empty
and fails nothing at reset (log entry 4) makes it true in any phase. -/
def Obligations.WaitsForAReasonAtReset : Prop := WaitsForAReason State.reset

/-- R21, R94: every step keeps it that a CORE in AWAIT waits only while the transport neither has the bytes nor fails. -/
def Obligations.WaitsForAReasonKept : Prop :=
  ∀ s t : State, WaitsForAReason s → step s = .next t → WaitsForAReason t

/-- R104, R114, R122: a step out of AWAIT is caused by the transport alone (bytes, a failed read, a reported close); it
delivers exactly one result and leaves `SEQ`. That a reported close fails the read is the model's choice (log entry
9). -/
def Obligations.AwaitEndsByTheTransport : Prop :=
  ∀ (s t : State) (frame : List Byte) (len : HalfWord), WaitsForAReason s → s.phase = .await frame len →
    step s = .next t → t.phase = .idle →
    ((∃ bytes rest, s.inputs = .transport (.receive bytes) :: rest) ∨
     (∃ e rest, s.inputs = .transport (.readFault (some e)) :: rest) ∨
     (∃ e rest, s.inputs = .close (some e) :: rest)) ∧
    (∃ r, t.events = s.events ++ [.result r]) ∧ t.seq = s.seq

/-- R76: in every state with the trace invariant (which every step keeps, `TraceInvKept`), the `k`-th frame built since
creation decodes to a request that carries `k` modulo 4. -/
def Obligations.FramesCarryConsecutiveNumbers : Prop :=
  ∀ s : State, TraceInv s →
    ∀ (k : Nat) (f : List Byte), (framesOf s.events)[k]? = some f →
      ∃ r : Request, decodeFrame f = .ok r ∧ r.seq.toNat = k % 4

/-- R141: in every state with the trace invariant, `SEQ` is the number of operations issued since creation, modulo 4,
whatever their outcomes. -/
def Obligations.SeqCountsOperations : Prop :=
  ∀ s : State, TraceInv s → s.seq.toNat = (framesOf s.events).length % 4
end

