-- ==== Sys2Proof/Laws/Frame.lean ====
section
/-! SUPPORT. What is needed again and again about frames: the encoder's command byte is the machine's, a sealed body
reads as its body, and a READL payload gives its operands back. -/

namespace Sys2Proof

@[simp] theorem seqField_append : ∀ (q : SeqNo) (c : Code), seqField (q ++ c) = q := by decide

@[simp] theorem codeField_append : ∀ (q : SeqNo) (c : Code), codeField (q ++ c) = c := by decide

theorem append_fields : ∀ cmd : Byte, seqField cmd ++ codeField cmd = cmd := by decide

/-- R71 and the field table of R42 give the same byte. -/
theorem cmdByte_eq_append : ∀ (q : SeqNo) (c : Code), Machine.cmdByte q c = q ++ c := by decide

/-- `buildFrame` assembles what the encoder writes. -/
theorem frameBytes_eq_encode (q : SeqNo) (i : Instr) :
    Machine.frameBytes q (codeOf i) (payloadOf i) = encode q i := by
  simp [Machine.frameBytes, encode, sealBody, cmdByte_eq_append]

@[simp] theorem mask16_toNat (v : Nat) : (mask16 v).toNat = v % 65536 := by
  simp [mask16, BitVec.toNat_ofNat]

theorem mask16_mod (v : Nat) : mask16 (v % 65536) = mask16 v :=
  BitVec.eq_of_toNat_eq (by simp)

theorem fromBe16_be16 (v : HalfWord) : fromBe16 (v.extractLsb' 8 8) (v.extractLsb' 0 8) = v := by
  apply BitVec.eq_of_getLsbD_eq
  intro i hi
  by_cases h : i < 8
  · simp [fromBe16, h, hi]
  · have h₁ : 8 + (i - 8) = i := by omega
    have h₂ : i - 8 < 8 := by omega
    simp [fromBe16, h, hi, h₁, h₂]

theorem be16_fromBe16 (hi lo : Byte) : be16 (fromBe16 hi lo) = [hi, lo] := by
  simp only [be16, fromBe16, List.cons.injEq, and_true]
  constructor <;> apply BitVec.eq_of_getLsbD_eq <;> intro i h
  · have : 8 + i < 16 := by omega
    simp [h, this]
  · have : i < 16 := by omega
    simp [h, this]

/-- Reading a sealed body is reading the body: the trailer of R47 is accepted. -/
theorem decodeFrame_sealBody (body : List Byte) : decodeFrame (sealBody body) = decodeBody body := by
  unfold decodeFrame sealBody
  rw [List.dropLast_concat, List.getLast?_concat]
  cases decodeBody body <;> simp

end Sys2Proof
end

