-- ==== Sys2Proof/Laws/State.lean ====
section
/-! SUPPORT. One lemma per field per update of the state, each true by rfl. -/

namespace Sys2Proof.Machine

section
variable (s : State) (frame : List Byte) (len : HalfWord) (r : OpResult) (e : OpError)

@[simp] theorem advanceSeq_seq : s.advanceSeq.seq = s.seq + 1 := rfl
@[simp] theorem advanceSeq_phase : s.advanceSeq.phase = s.phase := rfl
@[simp] theorem advanceSeq_alive : s.advanceSeq.alive = s.alive := rfl
@[simp] theorem advanceSeq_tp : s.advanceSeq.tp = s.tp := rfl
@[simp] theorem advanceSeq_inputs : s.advanceSeq.inputs = s.inputs := rfl
@[simp] theorem advanceSeq_events : s.advanceSeq.events = s.events ++ [.seqChanged (s.seq + 1)] := rfl

@[simp] theorem tpWrite_answer : (tpWrite frame s).1 = s.tp.write.1 := rfl
@[simp] theorem tpWrite_seq : (tpWrite frame s).2.seq = s.seq := rfl
@[simp] theorem tpWrite_phase : (tpWrite frame s).2.phase = s.phase := rfl
@[simp] theorem tpWrite_alive : (tpWrite frame s).2.alive = s.alive := rfl
@[simp] theorem tpWrite_tp : (tpWrite frame s).2.tp = s.tp.write.2 := rfl
@[simp] theorem tpWrite_inputs : (tpWrite frame s).2.inputs = s.inputs := rfl
@[simp] theorem tpWrite_events :
    (tpWrite frame s).2.events = s.events ++ [.tpWrite frame s.tp.write.1] := rfl

@[simp] theorem beginRead_seq : (s.beginRead frame len).seq = s.seq := rfl
@[simp] theorem beginRead_phase : (s.beginRead frame len).phase = .await frame len := rfl
@[simp] theorem beginRead_alive : (s.beginRead frame len).alive = s.alive := rfl
@[simp] theorem beginRead_tp : (s.beginRead frame len).tp = s.tp := rfl
@[simp] theorem beginRead_inputs : (s.beginRead frame len).inputs = s.inputs := rfl
@[simp] theorem beginRead_events :
    (s.beginRead frame len).events = s.events ++ [.tpRead (len.toNat + 1)] := rfl

@[simp] theorem finish_seq : (s.finish r).seq = s.seq := rfl
@[simp] theorem finish_phase : (s.finish r).phase = .idle := rfl
@[simp] theorem finish_alive : (s.finish r).alive = s.alive := rfl
@[simp] theorem finish_tp : (s.finish r).tp = s.tp := rfl
@[simp] theorem finish_inputs : (s.finish r).inputs = s.inputs := rfl
@[simp] theorem finish_events : (s.finish r).events = s.events ++ [.result r] := rfl

@[simp] theorem raise_seq : (s.raise e).seq = s.seq := rfl
@[simp] theorem raise_phase : (s.raise e).phase = .idle := rfl
@[simp] theorem raise_alive : (s.raise e).alive = s.alive := rfl
@[simp] theorem raise_tp : (s.raise e).tp = s.tp := rfl
@[simp] theorem raise_inputs : (s.raise e).inputs = s.inputs := rfl
@[simp] theorem raise_events : (s.raise e).events = s.events ++ [.result (.error e)] := rfl

end

end Sys2Proof.Machine
end

