-- ==== Sys2Proof/Laws/Ops.lean ====
section
/-! SUPPORT. For each shared operation one lemma that says everything it can do; proofs cite these and do not unfold
the operations. -/

namespace Sys2Proof.Machine

open Sys2Proof.Safety

/-! ## The transport primitives -/

/-- Everything a `TpWrite` can answer (R20, R132). -/
theorem write_spec (tp : Transport) :
    (tp.closedError = none ∧ tp.writeFault = none ∧ tp.write = (.ok, tp)) ∨
    (∃ e, tp.closedError = some e ∧ tp.write = (.error e, tp)) ∨
    (∃ e, tp.closedError = none ∧ tp.writeFault = some e ∧
      tp.write = (.error e, { tp with writeFault := none })) := by
  obtain ⟨rx, _ | c, _ | w, rf⟩ := tp <;> simp [Transport.write]

/-- Everything a `TpRead(n)` can answer (R21, R33, R132). -/
theorem read_spec (n : Nat) (tp : Transport) :
    (∃ e, tp.closedError = some e ∧ tp.read n = (.error e, tp)) ∨
    (∃ e, tp.closedError = none ∧ tp.readFault = some e ∧
      tp.read n = (.error e, { tp with readFault := none })) ∨
    (tp.closedError = none ∧ tp.readFault = none ∧ n ≤ tp.rx.length ∧
      tp.read n = (.ok (tp.rx.take n), { tp with rx := tp.rx.drop n })) ∨
    (tp.closedError = none ∧ tp.readFault = none ∧ tp.rx.length < n ∧ tp.read n = (.pending, tp)) := by
  obtain ⟨rx, _ | c, wf, _ | r⟩ := tp <;> simp only [Transport.read] <;> simp
  by_cases h : n ≤ rx.length
  · simp [h]
  · simp [h]; omega

/-- A complete response splits into its payload and its last byte (R95). -/
theorem splitResponse_append {payload : List Byte} {n : Nat} (h : payload.length = n) (c : Byte) :
    splitResponse n (payload ++ [c]) = some (payload, c) := by
  subst h; simp [splitResponse]

/-- A list of `n + 1` bytes is a payload of `n` bytes and one more byte. -/
theorem exists_split {resp : List Byte} {n : Nat} (h : resp.length = n + 1) :
    ∃ payload c, resp = payload ++ [c] ∧ payload.length = n := by
  have hne : resp ≠ [] := by intro h0; simp [h0] at h
  exact ⟨resp.dropLast, resp.getLast hne, (List.dropLast_append_getLast hne).symm, by simp [h]⟩

/-! ## READL's second half -/

@[simp] theorem resume_idle {s : State} (h : s.phase = .idle) : s.resume = s := by simp [State.resume, h]

/-- The verdict on a complete response (R96, R97, R98). -/
def verdict (frame payload : List Byte) (c : Byte) : OpResult :=
  if extendedCrc frame payload = c then .payload payload else .error .crc

theorem checkResponse_append {frame payload : List Byte} {len : HalfWord} (h : payload.length = len.toNat)
    (c : Byte) (s : State) :
    checkResponse frame len (payload ++ [c]) s = s.finish (verdict frame payload c) := by
  unfold checkResponse verdict crcMatches
  rw [splitResponse_append h]
  by_cases hc : extendedCrc frame payload = c <;> simp [hc, State.raise]

/-- Everything that resuming a blocked READL can do (R94 to R98, R104). -/
theorem resume_spec {s : State} {frame : List Byte} {len : HalfWord} (h : s.phase = .await frame len) :
    (∃ e, s.tp.closedError = some e ∧ s.resume = s.finish (.error (.transport e))) ∨
    (∃ e, s.tp.closedError = none ∧ s.tp.readFault = some e ∧
      s.resume = { s with tp := { s.tp with readFault := none } }.finish (.error (.transport e))) ∨
    (∃ payload c rest, s.tp.closedError = none ∧ s.tp.readFault = none ∧ s.tp.rx = payload ++ c :: rest ∧
      payload.length = len.toNat ∧
      s.resume = { s with tp := { s.tp with rx := rest } }.finish (verdict frame payload c)) ∨
    (s.tp.closedError = none ∧ s.tp.readFault = none ∧ s.tp.rx.length < len.toNat + 1 ∧ s.resume = s) := by
  rcases read_spec (len.toNat + 1) s.tp with ⟨e, h₁, h₂⟩ | ⟨e, h₁, h₃, h₂⟩ | ⟨h₁, h₃, h₄, h₂⟩ | ⟨h₁, h₃, h₄, h₂⟩
  · exact .inl ⟨e, h₁, by simp only [State.resume, h, h₂]; rfl⟩
  · exact .inr (.inl ⟨e, h₁, h₃, by simp only [State.resume, h, h₂]; rfl⟩)
  · obtain ⟨payload, c, hp, hl⟩ := exists_split (resp := s.tp.rx.take (len.toNat + 1)) (n := len.toNat) (by simp [h₄])
    refine .inr (.inr (.inl ⟨payload, c, s.tp.rx.drop (len.toNat + 1), h₁, h₃, ?_, hl, ?_⟩))
    · have h5 := List.take_append_drop (len.toNat + 1) s.tp.rx
      rw [hp] at h5
      simpa using h5.symm
    · simp only [State.resume, h, h₂]
      rw [hp, checkResponse_append hl]
  · exact .inr (.inr (.inr ⟨h₁, h₃, h₄, by simp only [State.resume, h, h₂]⟩))

/-- With the response in the receive path the blocked READL ends with the verdict on it (R95 to R98). -/
theorem resume_complete {s : State} {frame payload rest : List Byte} {len : HalfWord} {c : Byte}
    (h : s.phase = .await frame len) (h₁ : s.tp.closedError = none) (h₂ : s.tp.readFault = none)
    (hrx : s.tp.rx = payload ++ c :: rest) (hl : payload.length = len.toNat) :
    s.resume = { s with tp := { s.tp with rx := rest } }.finish (verdict frame payload c) := by
  rcases resume_spec h with ⟨e, h₃, -⟩ | ⟨e, -, h₃, -⟩ | ⟨p, d, r, -, -, hrx', hl', h₄⟩ | ⟨-, -, h₃, -⟩
  · simp [h₁] at h₃
  · simp [h₂] at h₃
  · rw [hrx] at hrx'
    obtain ⟨rfl, hcr⟩ := List.append_inj hrx' (by omega)
    obtain ⟨rfl, rfl⟩ := List.cons.inj hcr
    exact h₄
  · rw [hrx] at h₃; simp at h₃; omega

/-- Without an answer a blocked READL stays as it is (R122). -/
theorem resume_blocked {s : State} {frame : List Byte} {len : HalfWord} (h : s.phase = .await frame len)
    (h₁ : s.tp.closedError = none) (h₂ : s.tp.readFault = none) (h₃ : s.tp.rx.length < len.toNat + 1) :
    s.resume = s := by
  rcases resume_spec h with ⟨e, h₄, -⟩ | ⟨e, -, h₄, -⟩ | ⟨p, d, r, -, -, hrx, hl, -⟩ | ⟨-, -, -, h₄⟩
  · simp [h₁] at h₄
  · simp [h₂] at h₄
  · rw [hrx] at h₃; simp at h₃; omega
  · exact h₄

/-! ## The two operations -/

/-- Everything SYNC can do once it is issued (R80, R83). -/
theorem syncBody_spec (s : State) :
    (s.tp.closedError = none ∧ s.tp.writeFault = none ∧
      syncBody s = { s with
        seq := s.seq + 1, phase := .idle
        events := s.events ++ [.seqChanged (s.seq + 1), .tpWrite (encode s.seq .sync) .ok, .result .unit] }) ∨
    (∃ e, WriteFails s e ∧
      syncBody s = { s with
        seq := s.seq + 1, phase := .idle, tp := s.tp.write.2
        events := s.events ++ [.seqChanged (s.seq + 1), .tpWrite (encode s.seq .sync) (.error e),
          .result (.error (.transport e))] }) := by
  have hf : frameBytes s.seq Config.cmdSync syncPayload = encode s.seq .sync := frameBytes_eq_encode s.seq .sync
  rcases write_spec s.tp with ⟨h₁, h₂, h⟩ | ⟨e, h₁, h⟩ | ⟨e, h₁, h₂, h⟩
  · exact .inl ⟨h₁, h₂, by simp [syncBody, buildFrame, tpWrite, h, hf, State.finish, State.advanceSeq]⟩
  · refine .inr ⟨e, .inl h₁, ?_⟩
    simp [syncBody, buildFrame, tpWrite, h, hf, State.finish, State.raise, State.advanceSeq]
  · refine .inr ⟨e, .inr ⟨h₁, h₂⟩, ?_⟩
    simp [syncBody, buildFrame, tpWrite, h, hf, State.finish, State.raise, State.advanceSeq]

/-- Everything the first half of READL can do once it is issued (R91 to R94, R104). -/
theorem readlRequest_spec (slave offset length : Nat) (s : State) :
    (s.tp.closedError = none ∧ s.tp.writeFault = none ∧
      readlRequest slave offset length s =
        { s with
          seq := s.seq + 1, phase := .await (encode s.seq (.readl slave offset length)) (mask16 length)
          events := s.events ++ [.seqChanged (s.seq + 1),
            .tpWrite (encode s.seq (.readl slave offset length)) .ok, .tpRead (length % 65536 + 1)] }) ∨
    (∃ e, WriteFails s e ∧
      readlRequest slave offset length s = { s with
        seq := s.seq + 1, phase := .idle, tp := s.tp.write.2
        events := s.events ++ [.seqChanged (s.seq + 1),
          .tpWrite (encode s.seq (.readl slave offset length)) (.error e), .result (.error (.transport e))] }) := by
  have hf : frameBytes s.seq Config.cmdReadl (readlPayload (mask16 slave) (mask16 offset) (mask16 length)) =
      encode s.seq (.readl slave offset length) := frameBytes_eq_encode s.seq (.readl slave offset length)
  rcases write_spec s.tp with ⟨h₁, h₂, h⟩ | ⟨e, h₁, h⟩ | ⟨e, h₁, h₂, h⟩
  · exact .inl ⟨h₁, h₂, by simp [readlRequest, buildFrame, tpWrite, h, hf, State.beginRead, State.advanceSeq]⟩
  · refine .inr ⟨e, .inl h₁, ?_⟩
    simp [readlRequest, buildFrame, tpWrite, h, hf, State.finish, State.raise, State.advanceSeq]
  · refine .inr ⟨e, .inr ⟨h₁, h₂⟩, ?_⟩
    simp [readlRequest, buildFrame, tpWrite, h, hf, State.finish, State.raise, State.advanceSeq]

/-- What an issued instruction does to the state. -/
def effectOf : Instr → State → State
  | .sync, s => syncBody s
  | .readl slave offset length, s => (readlRequest slave offset length s).resume

/-- Everything that presenting a command can lead to (R125, R132, R134). -/
theorem exec_spec (i : Instr) (s : State) :
    (Ready s ∧ exec i s = .next (effectOf i s)) ∨
    (s.alive = false ∧ exec i s = .refused .instanceDestroyed) ∨
    (s.alive = true ∧ (∃ f n, s.phase = .await f n) ∧ exec i s = .refused .operationInProgress) := by
  cases ha : s.alive <;> cases hp : s.phase <;> cases i <;>
    simp [exec, execSync, execReadl, issueRefusal, effectOf, Ready, ha, hp]

theorem exec_ready {i : Instr} {s : State} (h : Ready s) : exec i s = .next (effectOf i s) := by
  rcases exec_spec i s with ⟨-, h'⟩ | ⟨h', -⟩ | ⟨-, ⟨f, n, h'⟩, -⟩
  · exact h'
  · simp [h.1] at h'
  · simp [h.2] at h'

theorem exec_next {i : Instr} {s t : State} (h : exec i s = .next t) : Ready s ∧ t = effectOf i s := by
  rcases exec_spec i s with ⟨hr, h'⟩ | ⟨-, h'⟩ | ⟨-, -, h'⟩ <;> rw [h'] at h
  · exact ⟨hr, by injection h with h; exact h.symm⟩
  · cases h
  · cases h

/-! ## One step by its next input -/

theorem step_nil {s : State} (h : s.inputs = []) : step s = .next s.resume := by simp [step, h]

theorem step_transport {s : State} {t : TransportInput} {rest : List Input} (h : s.inputs = .transport t :: rest) :
    step s = .next (transportInput t { s with inputs := rest }) := by simp [step, h]

theorem step_close {s : State} {r : Option TransportError} {rest : List Input} (h : s.inputs = .close r :: rest) :
    step s = closeTransport r { s with inputs := rest } := by simp [step, h]

theorem step_create {s : State} {rest : List Input} (h : s.inputs = .create :: rest) :
    step s = createInstance { s with inputs := rest } := by simp [step, h]

/-- Everything closing the transport can do (R132). -/
theorem closeTransport_spec (report : Option TransportError) (s : State) :
    (∃ e, report = some e ∧
      closeTransport report s = .next { s with tp := { s.tp with closedError := some e } }.resume) ∨
    (report = none ∧ s.phase = .idle ∧ closeTransport report s = .next { s with alive := false }) ∨
    (report = none ∧ (∃ f n, s.phase = .await f n) ∧ closeTransport report s = .refused .closedInProgress) := by
  cases report <;> cases hp : s.phase <;> simp [closeTransport, hp]

/-- Everything creating an instance can do (R130, R131, R136). -/
theorem createInstance_spec (s : State) :
    (s.phase = .idle ∧ (s.alive = false ∨ s.tp.closedError ≠ none) ∧
      createInstance s = .next { s with
        seq := 0, alive := true, tp := { s.tp with closedError := none }, events := [] }) ∨
    (s.phase = .idle ∧ s.alive = true ∧ s.tp.closedError = none ∧ createInstance s = .refused .transportShared) ∨
    ((∃ f n, s.phase = .await f n) ∧ createInstance s = .refused .resetInProgress) := by
  cases ha : s.alive <;> cases hc : s.tp.closedError <;> cases hp : s.phase <;>
    simp [createInstance, hp, ha, hc, Config.seqReset]

end Sys2Proof.Machine
end

