-- ==== Sys2Proof/Laws/PerInstr.lean ====
section
/-! SUPPORT. Facts about every instruction as syntax, one lemma per constructor. -/

namespace Sys2Proof.Laws

/-- The length of the request frame (R49). -/
def FrameLength.Statement (i : Instr) : Prop :=
  ∀ q : SeqNo, (encode q i).length = match i with | .sync => 19 | .readl _ _ _ => 9

theorem FrameLength.sync : FrameLength.Statement .sync := fun _ => rfl

theorem FrameLength.readl (slave offset length : Nat) : FrameLength.Statement (.readl slave offset length) :=
  fun _ => rfl

/-- Masking (R51, R91) makes the operands fit the frame, changes no operand that already fits, and leaves the frame
as it is. -/
def Masking.Statement (i : Instr) : Prop :=
  i.masked.wf = true ∧ (i.wf = true → i.masked = i) ∧ ∀ q : SeqNo, encode q i.masked = encode q i

theorem Masking.sync : Masking.Statement .sync := ⟨rfl, fun _ => rfl, fun _ => rfl⟩

theorem Masking.readl (slave offset length : Nat) : Masking.Statement (.readl slave offset length) := by
  have hw : ∀ a b c : Nat, (Instr.readl a b c).wf = true ↔ a < 65536 ∧ b < 65536 ∧ c < 65536 := by
    intro a b c
    simp [Instr.wf, slaveInRange, offsetInRange, lengthInRange, Config.idWidth, Config.offsetWidth, Config.maxRun,
      and_assoc, Nat.lt_succ_iff]
    exact fun _ _ => decide_eq_true_iff
  refine ⟨(hw _ _ _).2 ⟨by omega, by omega, by omega⟩, fun h => ?_, fun q => ?_⟩
  · obtain ⟨h₁, h₂, h₃⟩ := (hw _ _ _).1 h
    simp [Instr.masked, Nat.mod_eq_of_lt, h₁, h₂, h₃]
  · simp [encode, Instr.masked, payloadOf, codeOf, mask16_mod]

end Sys2Proof.Laws
end

