-- ==== Sys2Proof/Tests/Slice0.lean ====
section
/-! SUPPORT. Our own tests: the WellFormed smoke, decoding of words written out from the spec, single steps against
spec/95_test_vectors.md, and for every statement with hypotheses a state that meets them. -/

namespace Sys2Proof.Tests

open Sys2Proof.Machine Sys2Proof.Safety

/-! ## States built by hand -/

/-- An idle CORE with this `SEQ` and these bytes in the receive path. -/
def idleWith (q : SeqNo) (rx : List Byte) : State :=
  { State.reset with seq := q, tp := { freshTransport with rx := rx } }

/-- The request frame of example S1. -/
def frameS1 : List Byte := [0x55, 0x3C, 0x00, 0x00, 0x00, 0x00, 0x00, 0x04, 0x09]

/-- A CORE that has sent the request of S1 and awaits five bytes, with these inputs to come. -/
def awaitingS1 (rx : List Byte) (inputs : List Input) : State :=
  { idleWith 1 rx with
    phase := .await frameS1 4, inputs := inputs
    events := [.seqChanged 1, .tpWrite frameS1 .ok, .tpRead 5] }

/-- An error of the transport. -/
def e₁ : TransportError := ⟨1⟩

/-- A state whose next input is `x`. -/
def withInput (s : State) (x : Input) : State := { s with inputs := [x] }

/-- Two results are what matters of a step: `SEQ` and the last effect. -/
def summary (o : Host.Outcome State Fault Refusal) : Option (SeqNo × Option Event) :=
  (nextOf o).map fun t => (t.seq, t.events.getLast?)

/-! ## WellFormed refuses an operand of 17 bits in each place -/

theorem test_wf_slave : (Instr.readl 0x10000 0 0).wf = false := by decide
theorem test_wf_offset : (Instr.readl 0 0x10000 0).wf = false := by decide
theorem test_wf_length : (Instr.readl 0 0 0x10000).wf = false := by decide
theorem test_wf_accepts : (Instr.readl 0xFFFF 0xFFFF 0xFFFF).wf = true ∧ Instr.sync.wf = true := by decide

/-! ## Words written out from the spec's encodings -/

/-- R81, row `SEQ = 2`: CMD_BYTE is `10 000001`. -/
theorem test_decode_sync :
    decodeFrame [0x55, 0b10000001, 0x1F, 0x2E, 0x3D, 0x4C, 0x5B, 0x6A, 0x79, 0x88, 0x97, 0xA6, 0xB5, 0xC4, 0xD3, 0xE2,
      0xF1, 0x01, 0xB2] = .ok ⟨2, .sync⟩ := by decide +kernel

/-- V-RQ-8: CMD_BYTE is `10 111100`; the operands are 0x2345, 0xFFFF, 4. -/
theorem test_decode_readl :
    decodeFrame [0x55, 0b10111100, 0x23, 0x45, 0xFF, 0xFF, 0x00, 0x04, 0xA2] =
      .ok ⟨2, .readl 0x2345 0xFFFF 4⟩ := by decide +kernel

/-- The table's rows, `ss000001` and `ss111100`, with operand bytes of zeros. -/
theorem test_table_words :
    decodeTableWord 8 0b00000001 = some .sync ∧ decodeTableWord 8 0b11000001 = some .sync ∧
    decodeTableWord 8 0b00111100 = some (.readl 0 0 0) ∧ decodeTableWord 8 0b01111100 = some (.readl 0 0 0) := by
  decide

/-- What is no frame is rejected by name (R41, R45, R47, R49, R50). -/
theorem test_decode_rejects :
    decodeFrame [] = .error .truncated ∧
    decodeFrame [0x54, 0x3C, 0, 0, 0, 0, 0, 4, 0x09] = .error (.badStart 0x54) ∧
    decodeFrame [0x55, 0x3D, 0, 0, 0, 0, 0, 4, 0x09] = .error (.reservedCode 0x3D) ∧
    decodeFrame [0x55, 0x3C, 0, 0, 0, 0, 0, 4, 0x0A] = .error .badCrc ∧
    decodeFrame [0x55, 0x3C, 0, 0, 0, 0, 0, 0, 4, 0x09] = .error .badLength ∧
    decodeFrame (0x55 :: 0x01 :: (List.replicate 16 0 ++ [0x00])) = .error .badSyncPayload := by decide +kernel

/-! ## CRC vectors (95_test_vectors.md 2.1) -/

/-- The eight shifts of `upd(FF, 55)`. -/
theorem test_upd : (List.range 8).map (fun k => Nat.repeat crcShift (k + 1) (0xFF ^^^ 0x55)) =
    [0x49, 0x92, 0x39, 0x72, 0xE4, 0xD5, 0xB7, 0x73] := by decide +kernel

/-- V-CRC-26, V-CRC-29, V-CRC-32. -/
theorem test_crc_vectors : crc8 [0xF2, 0x01, 0x83] = 0x37 ∧
    crc8 [0x33, 0x22, 0x55, 0xAA, 0xBB, 0xCC, 0xDD, 0xEE, 0xFF] = 0xCB ∧
    crc8 [0x31, 0x32, 0x33, 0x34, 0x35, 0x36, 0x37, 0x38, 0x39] = 0x4B := by decide +kernel

/-- R103: the scope is frame and payload, not the payload alone (EB) nor the frame without its trailer (EA). -/
theorem test_crc_scope : extendedCrc frameS1 [0x00, 0x00, 0xA0, 0x41] = 0xA2 ∧
    crc8 [0x00, 0x00, 0xA0, 0x41] = 0xEB ∧ crc8 (frameS1.take 8 ++ [0x00, 0x00, 0xA0, 0x41]) = 0xEA := by
  decide +kernel

/-- V-BF-5: all bits of the command byte set, and the counter wraps. -/
theorem test_buildFrame_wraps :
    (buildFrame 0x3F [0xAA] (idleWith 3 [])).1 = [0x55, 0xFF, 0xAA, 0x32] ∧
    (buildFrame 0x3F [0xAA] (idleWith 3 [])).2.seq = 0 := by decide +kernel

/-! ## Single steps -/

/-- V-SY-6: a failed write at `SEQ = 3` still wraps the counter to 0. -/
theorem test_sync_unsent :
    summary (step { idleWith 3 [] with inputs := [.command .sync], tp := { freshTransport with writeFault := some e₁ } }) =
      some (0, some (.result (.error (.transport e₁)))) := by decide

/-- V-SY-4: the frame sent at `SEQ = 3`. -/
theorem test_sync_frame :
    (nextOf (step (withInput (idleWith 3 []) (.command .sync)))).map (fun t => framesOf t.events) =
      some [[0x55, 0xC1, 0x1F, 0x2E, 0x3D, 0x4C, 0x5B, 0x6A, 0x79, 0x88, 0x97, 0xA6, 0xB5, 0xC4, 0xD3, 0xE2, 0xF1, 0x01,
        0x98]] := by decide +kernel

/-- V-RD-8 with V-RQ-8: truncated operands, a good response. -/
theorem test_readl_returns :
    summary (step (withInput (idleWith 2 [0x01, 0x02, 0x03, 0x04, 0x2E]) (.command (.readl 0x12345 0xFFFFF 0x10004)))) =
      some (3, some (.result (.payload [0x01, 0x02, 0x03, 0x04]))) := by decide +kernel

/-- V-RD-27: a stale byte in front of the response; the byte A2 stays in the receive path. -/
theorem test_readl_stale_byte :
    let o := step (withInput (idleWith 0 [0xAA, 0x00, 0x00, 0xA0, 0x41, 0xA2]) (.command (.readl 0 0 4)))
    summary o = some (1, some (.result (.error .crc))) ∧ (nextOf o).map (·.tp.rx) = some [0xA2] := by decide +kernel

/-- P7: the read that is not answered leaves AWAIT with FRAME and length'. -/
theorem test_readl_awaits :
    (nextOf (step (withInput State.reset (.command (.readl 0 0 4))))).map (fun t => (t.seq, t.phase)) =
      some (1, .await frameS1 4) := by decide +kernel

/-- R104, S5: the response arrives while the READL is blocked. -/
theorem test_await_completes :
    summary (step (awaitingS1 [0x00] [.transport (.receive [0x00, 0xA0, 0x41, 0xA2])])) =
      some (1, some (.result (.payload [0x00, 0x00, 0xA0, 0x41]))) := by decide +kernel

/-! ## Hypotheses are met: statements about the CRC and the frames -/

theorem witness_CrcDetectsAByteChange : (0x00 : Byte) ≠ 0x01 := by decide

theorem witness_SyncFrames : (idleWith 0 []).seq = 0 ∧ (idleWith 1 []).seq = 1 ∧ (idleWith 2 []).seq = 2 ∧
    (idleWith 3 []).seq = 3 := by decide

theorem witness_CommandByteFields : (idleWith 3 []).seq = 3 ∧ (idleWith 0 []).seq = 0 := by decide

theorem witness_ConsecutiveFramesDifferInTwoBytes :
    1 < (buildFrame 0x3F [] (idleWith 3 [])).1.length := by decide

theorem witness_DecodeEncode : (Instr.readl 0xFFFF 0xFFFF 0xFFFF).wf = true ∧ (Instr.readl 0 0 0).wf = true ∧
    Instr.sync.wf = true := by decide

theorem witness_EncodeDecode : decodeFrame frameS1 = .ok ⟨0, .readl 0 0 4⟩ := by decide +kernel

theorem witness_ReservedCodesHaveNoMeaning : ([0x00] : List Byte) ≠ [] ∧
    codeField 0x00 ≠ 0x01 ∧ codeField 0x00 ≠ 0x3C ∧ codeField 0xFF ≠ 0x01 ∧ codeField 0xFF ≠ 0x3C := by decide

/-! ## Hypotheses are met: steps and SYNC -/

theorem witness_StepRunsThePresentedCommand :
    (withInput State.reset (.command .sync)).inputs = .command .sync :: [] := by decide

theorem witness_StepRunsTheDecodedWord : decodeTableWord 8 0x01 = some .sync ∧
    decodeTableWord 8 0x3C = some (.readl 0 0 0) := by decide

theorem witness_IdleCoreWaits : State.reset.phase = .idle ∧ State.reset.inputs = [] := by decide

theorem witness_StrayBytesOnlyWait : (withInput State.reset (.transport (.receive [0xAA]))).phase = .idle ∧
    (withInput State.reset (.transport (.receive [0xAA]))).inputs = .transport (.receive [0xAA]) :: [] := by decide

theorem witness_SyncCompletes : Ready State.reset ∧ WriteAccepted State.reset := by decide

theorem witness_SyncsCountModFour :
    let s := { State.reset with inputs := List.replicate 5 (.command .sync) ++ [Input.create] }
    Ready s ∧ WriteAccepted s ∧ s.inputs = List.replicate 5 (.command .sync) ++ [.create] := by decide

/-! ## Hypotheses are met: READL -/

theorem witness_ReadlReturnsThePayload :
    let s := idleWith 0 ([0x00, 0x00, 0xA0, 0x41] ++ 0xA2 :: [])
    Ready s ∧ WriteAccepted s ∧ s.tp.readFault = none ∧ s.tp.rx = [0x00, 0x00, 0xA0, 0x41] ++ 0xA2 :: [] ∧
    ([0x00, 0x00, 0xA0, 0x41] : List Byte).length = 0x10004 % 65536 ∧
    crc8 (encode s.seq (.readl 0 0 0x10004) ++ [0x00, 0x00, 0xA0, 0x41]) = 0xA2 := by decide +kernel

theorem witness_ReadlRaisesCrcError :
    let s := idleWith 0 ([0x00, 0x00, 0xA0, 0x41] ++ 0xA3 :: [])
    Ready s ∧ WriteAccepted s ∧ s.tp.readFault = none ∧ s.tp.rx = [0x00, 0x00, 0xA0, 0x41] ++ 0xA3 :: [] ∧
    ([0x00, 0x00, 0xA0, 0x41] : List Byte).length = 4 % 65536 ∧
    crc8 (encode s.seq (.readl 0 0 4) ++ [0x00, 0x00, 0xA0, 0x41]) ≠ 0xA3 := by decide +kernel

theorem witness_ReadlFailsWithTheReadsError :
    let s := { State.reset with tp := { freshTransport with readFault := some e₁ } }
    Ready s ∧ WriteAccepted s ∧ s.tp.readFault = some e₁ := by decide

theorem witness_ReadlAwaitsTheResponse :
    Ready (idleWith 0 [0x00]) ∧ WriteAccepted (idleWith 0 [0x00]) ∧ (idleWith 0 [0x00]).tp.readFault = none ∧
    (idleWith 0 [0x00]).tp.rx.length < 1 % 65536 + 1 ∧ (idleWith 0 []).tp.rx.length < 0 % 65536 + 1 := by decide

theorem witness_FailedWriteEndsTheOperation :
    let s := { State.reset with tp := { freshTransport with closedError := some e₁ } }
    let s' := { State.reset with tp := { freshTransport with writeFault := some e₁ } }
    (Ready s ∧ s.tp.closedError = some e₁) ∧ (Ready s' ∧ s'.tp.closedError = none ∧ s'.tp.writeFault = some e₁) := by
  decide

theorem witness_BlockedReadCompletes :
    let s := awaitingS1 [0x00] [.transport (.receive [0x00, 0xA0, 0x41, 0xA2, 0x3B])]
    s.phase = .await frameS1 4 ∧ s.tp.closedError = none ∧ s.tp.readFault = none ∧
    s.inputs = .transport (.receive [0x00, 0xA0, 0x41, 0xA2, 0x3B]) :: [] ∧
    s.tp.rx ++ [0x00, 0xA0, 0x41, 0xA2, 0x3B] = [0x00, 0x00, 0xA0, 0x41] ++ 0xA2 :: [0x3B] ∧
    ([0x00, 0x00, 0xA0, 0x41] : List Byte).length = (4 : HalfWord).toNat := by decide

theorem witness_BlockedReadFails :
    let s := awaitingS1 [] [.transport (.readFault (some e₁))]
    let s' := awaitingS1 [] [.close (some e₁)]
    (s.phase = .await frameS1 4 ∧ s.tp.closedError = none ∧ s.inputs = .transport (.readFault (some e₁)) :: []) ∧
    (s'.phase = .await frameS1 4 ∧ s'.inputs = .close (some e₁) :: []) := by decide

theorem witness_UnansweredReadNeverEnds :
    let s := awaitingS1 [0x00, 0x00, 0xA0, 0x41] []
    s.phase = .await frameS1 4 ∧ s.inputs = [] ∧ s.tp.closedError = none ∧ s.tp.readFault = none ∧
    s.tp.rx.length ≤ (4 : HalfWord).toNat := by decide

theorem witness_SplittingReadlAddsNothing : Ready State.reset := by decide

theorem witness_ZeroLengthRead :
    Ready (idleWith 0 [0x3B]) ∧ WriteAccepted (idleWith 0 [0x3B]) ∧ (idleWith 0 [0x3B]).tp.readFault = none ∧
    0x10000 % 65536 = 0 ∧ (idleWith 0 [0x3B]).tp.rx = 0x3B :: [] := by decide

theorem witness_LongestRead :
    let payload : List Byte := List.replicate 65535 0
    let s := idleWith 0 (payload ++ crc8 (encode 0 (.readl 0 0 0xFFFF) ++ payload) :: [])
    Ready s ∧ WriteAccepted s ∧ s.tp.readFault = none ∧ payload.length = 65535 ∧
    s.tp.rx = payload ++ crc8 (encode s.seq (.readl 0 0 0xFFFF) ++ payload) :: [] :=
  ⟨⟨rfl, rfl⟩, ⟨rfl, rfl⟩, rfl, List.length_replicate, rfl⟩

theorem witness_OneWrongByteIsDetected :
    let s := idleWith 0 ([] ++ 0x7F :: ([0x5C] ++ [0xAA]))
    ∃ t, (0x7F : Byte) ≠ 0x7E ∧ s.tp.rx = [] ++ 0x7F :: ([0x5C] ++ [0xAA]) ∧
      (([] ++ 0x7F :: [0x5C] : List Byte)).length = 1 % 65536 + 1 ∧
      exec (.readl 1 0x10 1) s = .next t ∧ t.events.getLast? = some (.result (.payload [0x7F])) :=
  ⟨_, by decide, rfl, by decide, rfl, by decide +kernel⟩

/-! ## Hypotheses are met: every operation, lifetime, invariants -/

theorem witness_IssuedOperationsEndOrBlock : Ready State.reset := by decide

theorem witness_EveryOperationAdvancesSeq :
    (∃ t, exec .sync State.reset = .next t) ∧ (∃ t, exec (.readl 0 0 4) State.reset = .next t) :=
  ⟨⟨_, rfl⟩, ⟨_, rfl⟩⟩

theorem witness_OperationEffectsAreTheClosedList :
    (∃ t, exec .sync (idleWith 3 []) = .next t) ∧ (∃ t, exec (.readl 0 0 0) (idleWith 3 [0x3B]) = .next t) :=
  ⟨⟨_, rfl⟩, ⟨_, rfl⟩⟩

theorem witness_OperationFrame :
    (∃ t, exec .sync (idleWith 3 [0xAA]) = .next t) ∧ (∃ t, exec (.readl 0 0 0) (idleWith 3 [0x3B]) = .next t) ∧
    (∃ t, exec (.readl 0 0 0) { State.reset with tp := ⟨[0x3B], some e₁, some e₁, some e₁⟩ } = .next t) ∧
    (∃ t, exec (.readl 0 0 0) { State.reset with tp := ⟨[0x3B], none, none, some e₁⟩ } = .next t) :=
  ⟨⟨_, rfl⟩, ⟨_, rfl⟩, ⟨_, rfl⟩, ⟨_, rfl⟩⟩

theorem witness_OnlyOperationsMoveSeq :
    (∃ t, step (withInput State.reset (.command .sync)) = .next t) ∧
    (∃ t, step (withInput { State.reset with alive := false } .create) = .next t) ∧
    (∃ t, step (withInput State.reset (.transport .clear)) = .next t) ∧ (∃ t, step State.reset = .next t) :=
  ⟨⟨_, rfl⟩, ⟨_, rfl⟩, ⟨_, rfl⟩, ⟨_, rfl⟩⟩

/-- Each of the five clauses of the refusals happens. -/
theorem witness_RefusedInExactlyFiveCases :
    step (withInput { State.reset with alive := false } (.command .sync)) = .refused .instanceDestroyed ∧
    step (awaitingS1 [] [.command .sync]) = .refused .operationInProgress ∧
    step (withInput State.reset .create) = .refused .transportShared ∧
    step (awaitingS1 [] [.create]) = .refused .resetInProgress ∧
    step (awaitingS1 [] [.close none]) = .refused .closedInProgress :=
  ⟨rfl, rfl, rfl, rfl, rfl⟩

theorem witness_CreationStartsAfresh :
    let s := { idleWith 3 [0xAA] with inputs := [.close none, .create] }
    s.phase = .idle ∧ s.inputs = .close none :: .create :: [] := by decide

theorem witness_HistoryDoesNotMatter :
    let s := idleWith 1 []
    let s' := { s with inputs := [Input.create], events := [Event.seqChanged 1] }
    s'.seq = s.seq ∧ s'.phase = s.phase ∧ s'.alive = s.alive ∧ s'.tp = s.tp ∧ (∃ t, exec .sync s = .next t) ∧
    (∃ r, exec .sync (awaitingS1 [] []) = .refused r) :=
  ⟨rfl, rfl, rfl, rfl, ⟨_, rfl⟩, ⟨_, rfl⟩⟩

/-- The trace invariant holds of a state that is blocked in a READL. -/
theorem witness_TraceInvKept : TraceInv (awaitingS1 [] [.transport (.receive [0x3B])]) ∧
    ∃ t, step (awaitingS1 [] [.transport (.receive [0x3B])]) = .next t := by
  have hf : encode Config.seqReset (.readl 0 0 4) = frameS1 := by decide +kernel
  have h := Legal.blocked .fresh 0 0 4
  rw [pendingTrace, hf] at h
  exact ⟨⟨h, fun h => by cases h⟩, ⟨_, rfl⟩⟩

theorem witness_WaitsForAReasonKept : WaitsForAReason (awaitingS1 [] [.transport .clear]) ∧
    ∃ t, step (awaitingS1 [] [.transport .clear]) = .next t := by
  refine ⟨fun f n h => ?_, ⟨_, rfl⟩⟩
  cases h
  decide

/-- The three ways out of AWAIT. -/
theorem witness_AwaitEndsByTheTransport :
    WaitsForAReason (awaitingS1 [] []) ∧ (awaitingS1 [] []).phase = .await frameS1 4 ∧
    ∀ x ∈ [Input.transport (.receive [0, 0, 0xA0, 0x41, 0xA2]), .transport (.readFault (some e₁)), .close (some e₁)],
      (nextOf (step (awaitingS1 [] [x]))).map (·.phase) = some .idle := by
  refine ⟨fun f n h => ?_, rfl, by decide +kernel⟩
  cases h
  decide

theorem witness_FramesCarryConsecutiveNumbers :
    ∃ s f, TraceInv s ∧ (framesOf s.events)[1]? = some f :=
  ⟨{ State.reset with seq := _, events := _ }, _,
    ⟨.ended (.ended .fresh .syncDone) (.readlFailed 0 0 4 e₁), fun h => by cases h⟩, rfl⟩

theorem witness_SeqCountsOperations : TraceInv State.reset ∧ TraceInv (awaitingS1 [] []) := by
  have hf : encode Config.seqReset (.readl 0 0 4) = frameS1 := by decide +kernel
  have h := Legal.blocked .fresh 0 0 4
  rw [pendingTrace, hf] at h
  exact ⟨⟨.fresh, fun h => by cases h⟩, ⟨h, fun h => by cases h⟩⟩

/-- The host's obligation to synchronise is about the SYNCs before the first READL (R133); which of them count is the
model's choice (log entry 14). -/
theorem test_leadingSyncs :
    leadingSyncs [.command .sync, .transport .clear, .command .sync, .command (.readl 0 0 4), .command .sync] = 2 := by
  decide

end Sys2Proof.Tests
end

/-! SUPPORT. What a whole operation does, said once: its outcomes as a closed list, and that it commutes with a change
of the model's own fields (the record and the inputs). The statements about the state's fields follow from these. -/

namespace Sys2Proof.Machine

open Sys2Proof.Safety

/-! ## The transport after a `TpWrite` -/

@[simp] theorem write_rx (tp : Transport) : tp.write.2.rx = tp.rx := by
  rcases write_spec tp with ⟨-, -, h⟩ | ⟨e, -, h⟩ | ⟨e, -, -, h⟩ <;> rw [h]

@[simp] theorem write_closedError (tp : Transport) : tp.write.2.closedError = tp.closedError := by
  rcases write_spec tp with ⟨-, -, h⟩ | ⟨e, -, h⟩ | ⟨e, -, -, h⟩ <;> rw [h]

@[simp] theorem write_readFault (tp : Transport) : tp.write.2.readFault = tp.readFault := by
  rcases write_spec tp with ⟨-, -, h⟩ | ⟨e, -, h⟩ | ⟨e, -, -, h⟩ <;> rw [h]

/-- A transport that is not closed uses up the failure it decided; a closed one keeps it (log entries 3 and 9). -/
theorem write_writeFault (tp : Transport) :
    tp.write.2.writeFault = if tp.closedError = none then none else tp.writeFault := by
  rcases write_spec tp with ⟨-, hw, h⟩ | ⟨e, hc, h⟩ | ⟨e, hc, -, h⟩
  · simp [h, hw]
  · simp [h, hc]
  · simp [h, hc]

/-- A write that fails is not one that is accepted (R20). -/
theorem not_writeAccepted_of_writeFails {s : State} {e : TransportError} (h : WriteFails s e) : ¬ WriteAccepted s := by
  rintro ⟨hc, hw⟩
  rcases h with h | ⟨-, h⟩
  · simp [hc] at h
  · simp [hw] at h

/-! ## The outcomes of an operation -/

/-- A command takes effect unless R125 refuses it. -/
theorem exec_eq_elim (i : Instr) (s : State) :
    exec i s = (issueRefusal s).elim (.next (effectOf i s)) .refused := by
  cases i <;> cases h : issueRefusal s <;> simp [exec, execSync, execReadl, effectOf, h]

/-- The ways an issued operation can leave the state `s` (R80, R83, R93 to R98, R104). -/
inductive OpOutcome (s : State) : Instr → State → Prop
  /-- The `TpWrite` fails. -/
  | unsent (i : Instr) (e : TransportError) (hw : WriteFails s e) :
      OpOutcome s i { s with
        seq := s.seq + 1, phase := .idle, tp := s.tp.write.2
        events := s.events ++ [.seqChanged (s.seq + 1), .tpWrite (encode s.seq i) (.error e),
          .result (.error (.transport e))] }
  /-- The frame of a SYNC is sent. -/
  | syncDone (hw : WriteAccepted s) :
      OpOutcome s .sync { s with
        seq := s.seq + 1, phase := .idle
        events := s.events ++ [.seqChanged (s.seq + 1), .tpWrite (encode s.seq .sync) .ok, .result .unit] }
  /-- The request of a READL is sent and its `TpRead` fails. -/
  | readFailed (a b n : Nat) (e : TransportError) (hw : WriteAccepted s) (hr : s.tp.readFault = some e) :
      OpOutcome s (.readl a b n) { s with
        seq := s.seq + 1, phase := .idle, tp := { s.tp with readFault := none }
        events := s.events ++ pendingTrace s.seq a b n ++ [.result (.error (.transport e))] }
  /-- The request of a READL is sent and the response is there. -/
  | readAnswered (a b n : Nat) (payload rest : List Byte) (c : Byte) (hw : WriteAccepted s)
      (hr : s.tp.readFault = none) (hrx : s.tp.rx = payload ++ c :: rest) (hl : payload.length = n % 65536) :
      OpOutcome s (.readl a b n) { s with
        seq := s.seq + 1, phase := .idle, tp := { s.tp with rx := rest }
        events := s.events ++ pendingTrace s.seq a b n ++
          [.result (verdict (encode s.seq (.readl a b n)) payload c)] }
  /-- The request of a READL is sent and the transport has no answer yet. -/
  | readBlocked (a b n : Nat) (hw : WriteAccepted s) (hr : s.tp.readFault = none)
      (hrx : s.tp.rx.length < n % 65536 + 1) :
      OpOutcome s (.readl a b n) { s with
        seq := s.seq + 1, phase := .await (encode s.seq (.readl a b n)) (mask16 n)
        events := s.events ++ pendingTrace s.seq a b n }

theorem syncBody_outcome (s : State) : OpOutcome s .sync (syncBody s) := by
  rcases syncBody_spec s with ⟨hc, hw, h⟩ | ⟨e, hw, h⟩
  · rw [h]; exact .syncDone ⟨hc, hw⟩
  · rw [h]; exact .unsent .sync e hw

/-- READL's two halves together, where the first has sent the request. -/
theorem readl_sent_outcome {s t : State} {a b n : Nat} (hw : WriteAccepted s)
    (ht : t = { s with
      seq := s.seq + 1, phase := .await (encode s.seq (.readl a b n)) (mask16 n)
      events := s.events ++ pendingTrace s.seq a b n }) :
    OpOutcome s (.readl a b n) t.resume := by
  have hp : t.phase = .await (encode s.seq (.readl a b n)) (mask16 n) := by rw [ht]
  have htp : t.tp = s.tp := by rw [ht]
  rcases resume_spec hp with ⟨e, hc, -⟩ | ⟨e, -, hr, h⟩ | ⟨payload, c, rest, -, hr, hrx, hl, h⟩ | ⟨-, hr, hrx, h⟩
  · rw [htp, hw.1] at hc; cases hc
  · rw [htp] at hr
    rw [h, ht]; exact .readFailed a b n e hw hr
  · rw [htp] at hr hrx
    rw [h, ht]; exact .readAnswered a b n payload rest c hw hr hrx (by simpa using hl)
  · rw [htp] at hr hrx
    rw [h, ht]; exact .readBlocked a b n hw hr (by simpa using hrx)

theorem readl_outcome (a b n : Nat) (s : State) :
    OpOutcome s (.readl a b n) (readlRequest a b n s).resume := by
  rcases readlRequest_spec a b n s with ⟨hc, hw, h⟩ | ⟨e, hw, h⟩
  · exact readl_sent_outcome ⟨hc, hw⟩ h
  · rw [h, resume_idle rfl]; exact .unsent (.readl a b n) e hw

/-- Everything an operation that `exec` answers can have done. -/
theorem exec_outcome {i : Instr} {s t : State} (h : exec i s = .next t) : OpOutcome s i t := by
  obtain ⟨-, rfl⟩ := exec_next h
  cases i with
  | sync => exact syncBody_outcome s
  | readl a b n => exact readl_outcome a b n s

namespace OpOutcome

variable {s t : State} {i : Instr}

theorem seq (h : OpOutcome s i t) : t.seq = s.seq + 1 := by cases h <;> rfl

theorem alive (h : OpOutcome s i t) : t.alive = s.alive := by cases h <;> rfl

theorem inputs (h : OpOutcome s i t) : t.inputs = s.inputs := by cases h <;> rfl

theorem closedError (h : OpOutcome s i t) : t.tp.closedError = s.tp.closedError := by
  cases h with
  | unsent => exact write_closedError s.tp
  | _ => rfl

theorem events (h : OpOutcome s i t) : ∃ tail, t.events = s.events ++ tail := by
  cases h with
  | readFailed | readAnswered => exact ⟨_, List.append_assoc ..⟩
  | _ => exact ⟨_, rfl⟩

/-- Only a response that is there leaves the receive path, whole (R33, R36). -/
theorem rx (h : OpOutcome s i t) :
    ∃ taken, s.tp.rx = taken ++ t.tp.rx ∧
      (taken = [] ∨ ∃ a b n, i = .readl a b n ∧ taken.length = n % 65536 + 1) := by
  cases h with
  | readAnswered a b n payload rest c _ _ hrx hl =>
    exact ⟨payload ++ [c], by simpa using hrx, .inr ⟨a, b, n, rfl, by simpa using hl⟩⟩
  | unsent => exact ⟨[], (write_rx s.tp).symm, .inl rfl⟩
  | _ => exact ⟨[], rfl, .inl rfl⟩

theorem sync (h : OpOutcome s .sync t) :
    t.tp.rx = s.tp.rx ∧ t.tp.readFault = s.tp.readFault ∧ t.phase = .idle := by
  cases h with
  | unsent => exact ⟨write_rx s.tp, write_readFault s.tp, rfl⟩
  | syncDone => exact ⟨rfl, rfl, rfl⟩

theorem writeFault (h : OpOutcome s i t) :
    t.tp.writeFault = if s.tp.closedError = none then none else s.tp.writeFault := by
  cases h with
  | unsent => exact write_writeFault s.tp
  | syncDone hw | readFailed _ _ _ _ hw | readAnswered _ _ _ _ _ _ hw | readBlocked _ _ _ hw =>
    rw [if_pos hw.1]; exact hw.2

/-- A READL whose write was accepted is left with no decided failure of the read: it met none, or used it up. -/
theorem readFault (h : OpOutcome s i t) (hi : i ≠ .sync) :
    t.tp.readFault = if WriteAccepted s then none else s.tp.readFault := by
  cases h with
  | unsent _ _ hw => rw [if_neg (not_writeAccepted_of_writeFails hw)]; exact write_readFault s.tp
  | syncDone => exact absurd rfl hi
  | readFailed _ _ _ _ hw => rw [if_pos hw]
  | readAnswered _ _ _ _ _ _ hw hr | readBlocked _ _ _ hw hr => rw [if_pos hw]; exact hr

end OpOutcome

/-! ## The record and the further inputs play no part -/

/-- The same state with other inputs to come and an older record `before` in front of its own. -/
def State.withHistory (ins : List Input) (before : List Event) (s : State) : State :=
  { s with inputs := ins, events := before ++ s.events }

section
variable (ins : List Input) (before : List Event) (s : State)

@[simp] theorem withHistory_seq : (s.withHistory ins before).seq = s.seq := rfl
@[simp] theorem withHistory_phase : (s.withHistory ins before).phase = s.phase := rfl
@[simp] theorem withHistory_tp : (s.withHistory ins before).tp = s.tp := rfl

@[simp] theorem advanceSeq_withHistory :
    (s.withHistory ins before).advanceSeq = s.advanceSeq.withHistory ins before := by
  simp [State.withHistory, State.advanceSeq]

@[simp] theorem tpWrite_withHistory (frame : List Byte) :
    tpWrite frame (s.withHistory ins before) =
      ((tpWrite frame s).1, (tpWrite frame s).2.withHistory ins before) := by
  simp [State.withHistory, tpWrite]

@[simp] theorem beginRead_withHistory (frame : List Byte) (len : HalfWord) :
    (s.withHistory ins before).beginRead frame len = (s.beginRead frame len).withHistory ins before := by
  simp [State.withHistory, State.beginRead]

@[simp] theorem finish_withHistory (r : OpResult) :
    (s.withHistory ins before).finish r = (s.finish r).withHistory ins before := by
  simp [State.withHistory, State.finish]

@[simp] theorem raise_withHistory (e : OpError) :
    (s.withHistory ins before).raise e = (s.raise e).withHistory ins before :=
  finish_withHistory ins before s (.error e)

theorem syncBody_withHistory : syncBody (s.withHistory ins before) = (syncBody s).withHistory ins before := by
  simp only [syncBody, buildFrame, withHistory_seq, advanceSeq_withHistory, tpWrite_withHistory]
  rcases tpWrite (frameBytes s.seq Config.cmdSync syncPayload) s.advanceSeq with ⟨_ | e, s₂⟩
  · exact finish_withHistory ins before s₂ .unit
  · exact raise_withHistory ins before s₂ (.transport e)

theorem readlRequest_withHistory (slave offset length : Nat) :
    readlRequest slave offset length (s.withHistory ins before) =
      (readlRequest slave offset length s).withHistory ins before := by
  simp only [readlRequest, buildFrame, withHistory_seq, advanceSeq_withHistory, tpWrite_withHistory]
  generalize frameBytes s.seq Config.cmdReadl _ = frame
  rcases tpWrite frame s.advanceSeq with ⟨_ | e, s₂⟩
  · exact beginRead_withHistory ins before s₂ frame (mask16 length)
  · exact raise_withHistory ins before s₂ (.transport e)

theorem checkResponse_withHistory (frame : List Byte) (len : HalfWord) (resp : List Byte) :
    checkResponse frame len resp (s.withHistory ins before) =
      (checkResponse frame len resp s).withHistory ins before := by
  unfold checkResponse
  rcases splitResponse len.toNat resp with _ | ⟨payload, c⟩
  · rfl
  · cases h : crcMatches frame payload c <;> simp [h]

theorem resume_withHistory : (s.withHistory ins before).resume = s.resume.withHistory ins before := by
  cases hp : s.phase with
  | idle => rw [resume_idle hp, resume_idle (s := s.withHistory ins before) hp]
  | await frame len =>
    rcases hr : s.tp.read (len.toNat + 1) with ⟨resp | e | _, tp⟩ <;>
      simp only [State.resume, withHistory_phase, withHistory_tp, hp, hr]
    · rw [← checkResponse_withHistory]; rfl
    · rw [← raise_withHistory]; rfl

theorem effectOf_withHistory (i : Instr) :
    effectOf i (s.withHistory ins before) = (effectOf i s).withHistory ins before := by
  cases i with
  | sync => exact syncBody_withHistory ins before s
  | readl a b n => rw [effectOf, effectOf, readlRequest_withHistory, resume_withHistory]

/-- R125: whether a command is refused, and by which name, is read off the phase and `alive` alone. -/
theorem issueRefusal_withHistory : issueRefusal (s.withHistory ins before) = issueRefusal s := rfl

theorem exec_withHistory (i : Instr) :
    exec i (s.withHistory ins before) = mapNext (State.withHistory ins before) (exec i s) := by
  rw [exec_eq_elim, exec_eq_elim, issueRefusal_withHistory, effectOf_withHistory]
  cases issueRefusal s <;> rfl

end

/-- The part of a state that an operation may depend on (R11). -/
def State.withoutHistory (s : State) : State := { s with inputs := [], events := [] }

theorem withHistory_withoutHistory (s : State) : s.withoutHistory.withHistory s.inputs s.events = s := by
  simp [State.withHistory, State.withoutHistory]

theorem withoutHistory_congr {s s' : State} (hseq : s'.seq = s.seq) (hphase : s'.phase = s.phase)
    (halive : s'.alive = s.alive) (htp : s'.tp = s.tp) : s'.withoutHistory = s.withoutHistory := by
  simp [State.withoutHistory, hseq, hphase, halive, htp]

/-- An operation runs on the state without its history, and the history is put on the outcome. -/
theorem exec_eq_withoutHistory (i : Instr) (s : State) :
    exec i s = mapNext (State.withHistory s.inputs s.events) (exec i s.withoutHistory) := by
  rw [← exec_withHistory, withHistory_withoutHistory]

/-! ## `SEQ` over one step -/

theorem step_command {s : State} {i : Instr} {rest : List Input} (h : s.inputs = .command i :: rest) :
    step s = exec i { s with inputs := rest } := by simp [step, h]

@[simp] theorem resume_seq (s : State) : s.resume.seq = s.seq := by
  cases hp : s.phase with
  | idle => rw [resume_idle hp]
  | await frame len =>
    rcases resume_spec hp with ⟨e, -, h⟩ | ⟨e, -, -, h⟩ | ⟨payload, c, rest, -, -, -, -, h⟩ | ⟨-, -, -, h⟩ <;>
      rw [h] <;> rfl

theorem transportInput_seq (t : TransportInput) (s : State) : (transportInput t s).seq = s.seq :=
  resume_seq _

theorem closeTransport_seq {report : Option TransportError} {s t : State}
    (h : closeTransport report s = .next t) : t.seq = s.seq := by
  rcases closeTransport_spec report s with ⟨e, -, h'⟩ | ⟨-, -, h'⟩ | ⟨-, -, h'⟩ <;> rw [h'] at h <;> cases h
  · exact resume_seq _
  · rfl

theorem createInstance_seq {s t : State} (h : createInstance s = .next t) : t.seq = 0 := by
  rcases createInstance_spec s with ⟨-, -, h'⟩ | ⟨-, -, -, h'⟩ | ⟨-, h'⟩ <;> rw [h'] at h <;> cases h
  rfl

end Sys2Proof.Machine

/-! The settled statements about the state (spec/10_state.md). -/

namespace Sys2Proof.Proofs

open Sys2Proof.Machine Sys2Proof.Safety

/-- Settles O39: by the input that the step takes. -/
theorem onlyOperationsMoveSeq : Obligations.OnlyOperationsMoveSeq := by
  intro s t h
  cases hi : s.inputs with
  | nil =>
    rw [step_nil hi] at h
    cases h
    exact resume_seq s
  | cons x rest =>
    cases x with
    | command i =>
      rw [step_command hi] at h
      exact (exec_outcome h).seq
    | transport ti =>
      rw [step_transport hi] at h
      cases h
      exact transportInput_seq ti _
    | close report =>
      rw [step_close hi] at h
      exact (closeTransport_seq h :)
    | create =>
      rw [step_create hi] at h
      exact createInstance_seq h

/-- Settles O41: field by field over the outcomes of an operation. -/
theorem operationFrame : Obligations.OperationFrame := by
  intro i s t h
  have ho := exec_outcome h
  refine ⟨ho.alive, ho.inputs, ho.closedError, ho.events, ho.rx, ?_, ho.writeFault, ho.readFault⟩
  rintro rfl
  exact ho.sync

/-- Settles O45: both states are the state with an empty history under a history of their own, and `exec` commutes with
putting one on. -/
theorem historyDoesNotMatter : Obligations.HistoryDoesNotMatter := by
  intro i s s' hseq hphase halive htp
  have hs' := exec_eq_withoutHistory i s'
  rw [withoutHistory_congr hseq hphase halive htp] at hs'
  rw [hs', exec_eq_withoutHistory i s]
  cases exec i s.withoutHistory with
  | next u =>
    refine ⟨fun t ht => ?_, fun r hr => ?_⟩
    · cases ht
      exact ⟨u.events, rfl, rfl⟩
    · cases hr
  | fault f => cases f
  | refused r' =>
    refine ⟨fun t ht => ?_, fun r hr => ?_⟩
    · cases ht
    · cases hr
      rfl

/-- Settles O44: each field is the value written in `State.reset`. -/
theorem resetState : Obligations.ResetState := ⟨rfl, rfl, rfl, rfl⟩

/-- Settles O47: the empty trace is legal at `SEQ = 0` in IDLE. -/
theorem traceInvAtReset : Obligations.TraceInvAtReset := ⟨.fresh, fun _ => rfl⟩

/-- Settles O49: reset leaves IDLE, so there is nothing to wait for. -/
theorem waitsForAReasonAtReset : Obligations.WaitsForAReasonAtReset := by
  intro frame len h
  cases h

end Sys2Proof.Proofs

/-! SUPPORT. What READL's second half hands to the host, what one step can do, and that both keep the invariants. The
statements about the transport's events and the waiting for it follow from these. -/

namespace Sys2Proof.Machine

open Sys2Proof.Safety

/-! ## The result of a `TpRead` that was answered -/

/-- The results with which a READL can end that asked for `n + 1` bytes: any error, or exactly `n` bytes (R97, R98,
R112). -/
def ReadResult (n : Nat) : OpResult → Prop
  | .unit => False
  | .payload bytes => bytes.length = n
  | .error _ => True

@[simp] theorem readResult_error (n : Nat) (e : OpError) : ReadResult n (.error e) := trivial

/-- The verdict on a complete response is such a result, whatever the CRC says. -/
theorem readResult_verdict {payload : List Byte} {n : Nat} (h : payload.length = n) (frame : List Byte) (c : Byte) :
    ReadResult n (verdict frame payload c) := by
  unfold verdict
  split
  · exact h
  · trivial

/-- The effects of a READL up to its `TpRead`, with its result added, are a complete trace of the closed list (R35). -/
theorem opTrace_of_readResult {q : SeqNo} {a b n : Nat} {r : OpResult} (h : ReadResult (n % 65536) r) :
    OpTrace q (.readl a b n) (pendingTrace q a b n ++ [.result r]) := by
  cases r with
  | unit => exact h.elim
  | payload bytes => exact .readlDone a b n bytes h
  | error e =>
    cases e with
    | crc => exact .readlCorrupt a b n
    | transport e => exact .readlFailed a b n e

/-- A blocked READL ends with one result and an idle CORE, `SEQ` untouched, or stays as it is (R104, R114, R122). -/
theorem resume_ends_or_waits {s : State} {frame : List Byte} {len : HalfWord} (h : s.phase = .await frame len) :
    (∃ r tp, ReadResult len.toNat r ∧ s.resume = { s with tp := tp }.finish r) ∨ s.resume = s := by
  rcases resume_spec h with ⟨e, -, h'⟩ | ⟨e, -, -, h'⟩ | ⟨payload, c, rest, -, -, -, hl, h'⟩ | ⟨-, -, -, h'⟩
  · exact .inl ⟨_, s.tp, readResult_error _ _, h'⟩
  · exact .inl ⟨_, _, readResult_error _ _, h'⟩
  · exact .inl ⟨_, _, readResult_verdict hl frame c, h'⟩
  · exact .inr h'

/-! ## The effects of an operation -/

/-- R35: the effects of an operation are one of the complete traces, or those of a READL that blocks. -/
theorem OpOutcome.closedList {s t : State} {i : Instr} (h : OpOutcome s i t) :
    ∃ tail, t.events = s.events ++ tail ∧
      ((t.phase = .idle ∧ OpTrace s.seq i tail) ∨
       (∃ a b n, i = .readl a b n ∧ t.phase = .await (encode s.seq i) (mask16 n) ∧
         tail = pendingTrace s.seq a b n)) := by
  cases h with
  | unsent i e =>
    refine ⟨_, rfl, .inl ⟨rfl, ?_⟩⟩
    cases i with
    | sync => exact .syncUnsent e
    | readl a b n => exact .readlUnsent a b n e
  | syncDone => exact ⟨_, rfl, .inl ⟨rfl, .syncDone⟩⟩
  | readFailed => exact ⟨_, List.append_assoc .., .inl ⟨rfl, opTrace_of_readResult (readResult_error _ _)⟩⟩
  | readAnswered _ _ _ _ _ _ _ _ _ hl =>
    exact ⟨_, List.append_assoc .., .inl ⟨rfl, opTrace_of_readResult (readResult_verdict hl _ _)⟩⟩
  | readBlocked a b n => exact ⟨_, rfl, .inr ⟨a, b, n, rfl, rfl, rfl⟩⟩

/-! ## Everything one step can do -/

/-- R116: with no READL waiting, only the transport changes. -/
theorem transportInput_idle {s : State} (h : s.phase = .idle) (ti : TransportInput) :
    transportInput ti s = { s with tp := s.tp.input ti } :=
  resume_idle h

/-- The ways a step can leave the state `s`, by the input it takes. -/
inductive StepOutcome (s : State) : State → Prop
  /-- No input: a blocked READL goes on if it can (R122, R130). -/
  | waited (hi : s.inputs = []) : StepOutcome s s.resume
  /-- A command runs (R32, R53). -/
  | operation (i : Instr) (rest : List Input) (t : State) (hi : s.inputs = .command i :: rest)
      (h : exec i { s with inputs := rest } = .next t) : StepOutcome s t
  /-- The transport does something, and a blocked READL goes on if it can (R34, R104). -/
  | transport (ti : TransportInput) (rest : List Input) (hi : s.inputs = .transport ti :: rest) :
      StepOutcome s { s with inputs := rest, tp := s.tp.input ti }.resume
  /-- The transport closes and reports it, to a blocked READL too (R132). -/
  | closed (e : TransportError) (rest : List Input) (hi : s.inputs = .close (some e) :: rest) :
      StepOutcome s { s with inputs := rest, tp := { s.tp with closedError := some e } }.resume
  /-- The transport closes without a report, which destroys an idle CORE (R132). -/
  | destroyed (rest : List Input) (hi : s.inputs = .close none :: rest) (hp : s.phase = .idle) :
      StepOutcome s { s with inputs := rest, alive := false }
  /-- A CORE is created afresh (R130, R131, R136). -/
  | created (rest : List Input) (hi : s.inputs = .create :: rest) (hp : s.phase = .idle)
      (hfree : s.alive = false ∨ s.tp.closedError ≠ none) :
      StepOutcome s { s with
        inputs := rest, seq := 0, alive := true, tp := { s.tp with closedError := none }, events := [] }

theorem step_outcome {s t : State} (h : step s = .next t) : StepOutcome s t := by
  cases hi : s.inputs with
  | nil =>
    rw [step_nil hi] at h
    cases h
    exact .waited hi
  | cons x rest =>
    cases x with
    | command i =>
      rw [step_command hi] at h
      exact .operation i rest t hi h
    | transport ti =>
      rw [step_transport hi] at h
      cases h
      exact .transport ti rest hi
    | close report =>
      rw [step_close hi] at h
      rcases closeTransport_spec report { s with inputs := rest } with ⟨e, rfl, h'⟩ | ⟨rfl, hp, h'⟩ | ⟨-, -, h'⟩ <;>
        rw [h'] at h <;> cases h
      · exact .closed e rest hi
      · exact .destroyed rest hi hp
    | create =>
      rw [step_create hi] at h
      rcases createInstance_spec { s with inputs := rest } with ⟨hp, hfree, h'⟩ | ⟨-, -, -, h'⟩ | ⟨-, h'⟩ <;>
        rw [h'] at h <;> cases h
      exact .created rest hi hp hfree

/-! ## The trace invariant -/

/-- The result that ends a blocked READL completes its pending trace. -/
theorem legal_idle_of_await {events : List Event} {q : SeqNo} {frame : List Byte} {len : HalfWord} {r : OpResult}
    (h : Legal events q (.await frame len)) (hr : ReadResult len.toNat r) :
    Legal (events ++ [.result r]) q .idle := by
  cases h with
  | blocked h a b n =>
    rw [List.append_assoc]
    exact .ended h (opTrace_of_readResult (by simpa using hr))

theorem traceInv_resume {s : State} (h : TraceInv s) : TraceInv s.resume := by
  cases hp : s.phase with
  | idle => rwa [resume_idle hp]
  | await frame len =>
    rcases resume_ends_or_waits hp with ⟨r, tp, hr, h'⟩ | h'
    · have hl : Legal s.events s.seq (.await frame len) := hp ▸ h.1
      rw [h']
      exact ⟨legal_idle_of_await hl hr, fun _ => rfl⟩
    · rwa [h']

/-- An operation is issued on a legal trace of an idle CORE, and extends it by its own. -/
theorem traceInv_exec {i : Instr} {s t : State} (hs : TraceInv s) (h : exec i s = .next t) : TraceInv t := by
  obtain ⟨⟨halive, hidle⟩, -⟩ := exec_next h
  have hl : Legal s.events s.seq .idle := hidle ▸ hs.1
  have ho := exec_outcome h
  refine ⟨?_, fun hdead => ?_⟩
  · obtain ⟨tail, he, ⟨hp, op⟩ | ⟨a, b, n, rfl, hp, rfl⟩⟩ := ho.closedList
    · rw [he, ho.seq, hp]
      exact .ended hl op
    · rw [he, ho.seq, hp]
      exact .blocked hl a b n
  · rw [ho.alive, halive] at hdead
    cases hdead

/-! ## The waiting invariant -/

theorem waitsForAReason_of_idle {s : State} (h : s.phase = .idle) : WaitsForAReason s := by
  intro frame len hp
  rw [h] at hp
  cases hp

/-- Whatever state is resumed, it waits afterwards only if the transport had no answer (R94). -/
theorem waitsForAReason_resume (s : State) : WaitsForAReason s.resume := by
  cases hp : s.phase with
  | idle => exact waitsForAReason_of_idle (by rw [resume_idle hp, hp])
  | await frame len =>
    rcases resume_spec hp with ⟨e, -, h⟩ | ⟨e, -, -, h⟩ | ⟨payload, c, rest, -, -, -, -, h⟩ | ⟨hc, hr, hrx, h⟩
    · exact waitsForAReason_of_idle (by rw [h]; rfl)
    · exact waitsForAReason_of_idle (by rw [h]; rfl)
    · exact waitsForAReason_of_idle (by rw [h]; rfl)
    · rw [h]
      intro frame' len' hp'
      cases hp.symm.trans hp'
      exact ⟨hc, hr, hrx⟩

/-- An operation leaves IDLE, or ends with READL's second half not finding an answer. -/
theorem waitsForAReason_exec {i : Instr} {s t : State} (h : exec i s = .next t) : WaitsForAReason t := by
  cases i with
  | sync =>
    obtain ⟨-, -, hidle⟩ := (exec_outcome h).sync
    exact waitsForAReason_of_idle hidle
  | readl a b n =>
    obtain ⟨-, rfl⟩ := exec_next h
    exact waitsForAReason_resume _

/-- A step leaves a CORE that waits for a reason, from whatever state it starts. -/
theorem waitsForAReason_step {s t : State} (h : step s = .next t) : WaitsForAReason t := by
  cases step_outcome h with
  | waited | transport | closed => exact waitsForAReason_resume _
  | operation _ _ _ _ h => exact waitsForAReason_exec h
  | destroyed _ _ hp | created _ _ hp => exact waitsForAReason_of_idle hp

end Sys2Proof.Machine

/-! The settled statements about the transport and the waiting for it (spec/20_memory.md). -/

namespace Sys2Proof.Proofs

open Sys2Proof.Machine Sys2Proof.Safety

/-- Settles O48: by the input that the step takes. A resumed READL completes its pending trace, an operation appends its
own, a creation starts an empty one. -/
theorem traceInvKept : Obligations.TraceInvKept := by
  intro s t hs h
  cases step_outcome h with
  | waited => exact traceInv_resume hs
  | operation i rest t _ h => exact traceInv_exec (s := { s with inputs := rest }) hs h
  | transport ti rest => exact traceInv_resume (s := { s with inputs := rest, tp := s.tp.input ti }) hs
  | closed e rest =>
    exact traceInv_resume (s := { s with inputs := rest, tp := { s.tp with closedError := some e } }) hs
  | destroyed _ _ hp => exact ⟨hs.1, fun _ => hp⟩
  | created _ _ hp => exact ⟨(hp ▸ .fresh : Legal [] 0 s.phase), fun _ => hp⟩

/-- Settles O28: of the outcomes of a READL, only blocking agrees with an accepted write and a read without an answer. -/
theorem readlAwaitsTheResponse : Obligations.ReadlAwaitsTheResponse := by
  intro s a b n hready hw hr hrx
  obtain ⟨t, ht⟩ : ∃ t, exec (.readl a b n) s = .next t := ⟨_, exec_ready hready⟩
  rw [ht]
  cases exec_outcome ht with
  | unsent _ e hf => exact absurd hw (not_writeAccepted_of_writeFails hf)
  | readFailed _ _ _ e _ hf =>
    rw [hr] at hf
    cases hf
  | readAnswered _ _ _ payload rest c _ _ hans hl =>
    rw [hans, List.length_append, List.length_cons] at hrx
    omega
  | readBlocked => rfl

/-- Settles O40: by the outcomes of an operation, and the frame length of each instruction. -/
theorem operationEffectsAreTheClosedList : Obligations.OperationEffectsAreTheClosedList :=
  ⟨fun _ _ _ h => (exec_outcome h).closedList, Laws.FrameLength.sync, fun q a b n => Laws.FrameLength.readl a b n q⟩

/-- Settles O50: a step leaves the waiting invariant whether or not it held before, since every step that ends in AWAIT
has just asked the transport. -/
theorem waitsForAReasonKept : Obligations.WaitsForAReasonKept := fun _ _ _ h => waitsForAReason_step h

/-- Settles O19: by the definition of a step for a command. -/
theorem stepRunsThePresentedCommand : Obligations.StepRunsThePresentedCommand := fun _ _ _ h => step_command h

/-- Settles O22: in IDLE there is no READL to resume. -/
theorem strayBytesOnlyWait : Obligations.StrayBytesOnlyWait := by
  intro s bytes rest hidle hi
  have h := transportInput_idle (s := { s with inputs := rest }) hidle (.receive bytes)
  rw [step_transport hi, h]
  rfl

end Sys2Proof.Proofs

/-! SUPPORT. What the decoder accepts, said once: a frame is accepted exactly when it is the encoding of what was read
and the operands are in range. Before it the rules it rests on: the bytes of a 16-bit field and the two fields of the
command byte; after it R55's own words for the same frames. -/

namespace Sys2Proof

open Sys2Proof.Safety

/-! ## A 16-bit field and the command byte as numbers -/

/-- R22, R46: the bytes of a masked operand, most significant first, by arithmetic. -/
theorem be16_mask16 (v : Nat) :
    be16 (mask16 v) = [BitVec.ofNat 8 (v % 65536 / 256), BitVec.ofNat 8 (v % 65536 % 256)] := by
  have hhi : (mask16 v).extractLsb' 8 8 = BitVec.ofNat 8 (v % 65536 / 256) :=
    BitVec.eq_of_toNat_eq (by simp [Nat.shiftRight_eq_div_pow])
  have hlo : (mask16 v).extractLsb' 0 8 = BitVec.ofNat 8 (v % 65536 % 256) :=
    BitVec.eq_of_toNat_eq (by simp)
  rw [be16, hhi, hlo]

@[simp] theorem mask16_of_toNat (v : HalfWord) : mask16 v.toNat = v := by simp [mask16]

/-- R55: `(hi << 8) | lo`. -/
theorem fromBe16_toNat (hi lo : Byte) : (fromBe16 hi lo).toNat = (hi.toNat <<< 8) ||| lo.toNat := by
  have hhi : hi.toNat % 65536 = hi.toNat := by omega
  have hlo : lo.toNat % 65536 = lo.toNat := by omega
  have hshift : (hi.toNat <<< 8) % 65536 = hi.toNat <<< 8 := by omega
  simp [fromBe16, hhi, hlo, hshift]

theorem seqField_toNat : ∀ cmd : Byte, (seqField cmd).toNat = cmd.toNat >>> 6 := by decide

theorem codeField_setWidth : ∀ cmd : Byte, (codeField cmd).setWidth 8 = cmd &&& 0x3F := by decide

/-- R42, R55: the command byte is determined by its two fields, read by mask and shift. -/
theorem append_eq_iff (q : SeqNo) (c : Code) (cmd : Byte) :
    q ++ c = cmd ↔ cmd &&& 0x3F = c.setWidth 8 ∧ q.toNat = cmd.toNat >>> 6 := by
  rw [← seqField_toNat, ← codeField_setWidth]
  constructor
  · rintro rfl
    simp
  · rintro ⟨hc, hq⟩
    have hcode : codeField cmd = c := by simpa using congrArg (BitVec.setWidth 6) hc
    rw [BitVec.eq_of_toNat_eq hq, ← hcode, append_fields]

/-! ## Instructions in range -/

theorem wf_readl_iff (a b n : Nat) : (Instr.readl a b n).wf = true ↔ a < 65536 ∧ b < 65536 ∧ n < 65536 := by
  simp [Instr.wf, slaveInRange, offsetInRange, lengthInRange, Config.idWidth, Config.offsetWidth, Config.maxRun,
    and_assoc, Nat.lt_succ_iff]
  exact fun _ _ => decide_eq_true_iff

/-! ## What the decoder accepts -/

/-- A frame without its trailer: start byte, command byte, payload (R40). -/
def bodyOf (q : SeqNo) (i : Instr) : List Byte := Config.startByte :: (q ++ codeOf i) :: payloadOf i

theorem encode_eq_sealBody (q : SeqNo) (i : Instr) : encode q i = sealBody (bodyOf q i) := rfl

theorem decodeSyncPayload_eq_ok {q : SeqNo} {payload : List Byte} {r : Request} :
    decodeSyncPayload q payload = .ok r ↔ payload = syncPayload ∧ r = ⟨q, .sync⟩ := by
  unfold decodeSyncPayload
  split
  · next h => simp [h, eq_comm]
  · next h => split <;> simp [h]

/-- R46, R55: a READL payload is read exactly when it is three 16-bit fields, and these are what is read. -/
theorem decodeReadlPayload_eq_ok {q : SeqNo} {payload : List Byte} {r : Request} :
    decodeReadlPayload q payload = .ok r ↔
      ∃ a b n : HalfWord, payload = readlPayload a b n ∧ r = ⟨q, .readl a.toNat b.toNat n.toNat⟩ := by
  constructor
  · intro h
    unfold decodeReadlPayload at h
    split at h
    · next s₁ s₀ o₁ o₀ l₁ l₀ =>
      cases h
      exact ⟨fromBe16 s₁ s₀, fromBe16 o₁ o₀, fromBe16 l₁ l₀, by simp [readlPayload, be16_fromBe16], rfl⟩
    · cases h
  · rintro ⟨a, b, n, rfl, rfl⟩
    simp [decodeReadlPayload, readlPayload, be16, fromBe16_be16]

/-- The body of an instruction in range reads as that instruction (R40 to R46). -/
theorem decodeBody_bodyOf (q : SeqNo) {i : Instr} (h : i.wf = true) : decodeBody (bodyOf q i) = .ok ⟨q, i⟩ := by
  cases i with
  | sync => simp [decodeBody, bodyOf, codeOf, payloadOf, decodeSyncPayload]
  | readl a b n =>
    obtain ⟨ha, hb, hn⟩ := (wf_readl_iff a b n).1 h
    have hp : decodeReadlPayload q (payloadOf (.readl a b n)) = .ok ⟨q, .readl a b n⟩ :=
      decodeReadlPayload_eq_ok.2 ⟨_, _, _, rfl, by simp [Nat.mod_eq_of_lt, ha, hb, hn]⟩
    have hcode : Config.cmdReadl ≠ Config.cmdSync := by decide
    simp [decodeBody, bodyOf, codeOf, hcode, hp]

/-- A body that is read is the body of what was read, and what was read is in range. -/
theorem bodyOf_of_decodeBody {body : List Byte} {r : Request} (h : decodeBody body = .ok r) :
    bodyOf r.seq r.instr = body ∧ r.instr.wf = true := by
  unfold decodeBody at h
  split at h
  · next start cmd payload =>
    split at h
    · next hstart =>
      subst hstart
      split at h
      · next hcode =>
        obtain ⟨rfl, rfl⟩ := decodeSyncPayload_eq_ok.1 h
        exact ⟨by simp [bodyOf, codeOf, payloadOf, ← hcode, append_fields], rfl⟩
      · split at h
        · next hcode =>
          obtain ⟨a, b, n, rfl, rfl⟩ := decodeReadlPayload_eq_ok.1 h
          exact ⟨by simp [bodyOf, codeOf, payloadOf, ← hcode, append_fields],
            (wf_readl_iff _ _ _).2 ⟨a.isLt, b.isLt, n.isLt⟩⟩
        · cases h
    · cases h
  · cases h

/-- R47: a frame that is read is a body that is read the same, under its trailer. -/
theorem decodeFrame_eq_ok {f : List Byte} {r : Request} :
    decodeFrame f = .ok r ↔ ∃ body, f = sealBody body ∧ decodeBody body = .ok r := by
  constructor
  · intro h
    unfold decodeFrame at h
    split at h
    · next r' hbody =>
      split at h
      · next hlast =>
        cases h
        exact ⟨f.dropLast, (List.dropLast_append_getLast? _ hlast).symm, hbody⟩
      · cases h
    · cases h
  · rintro ⟨body, rfl, hbody⟩
    rw [decodeFrame_sealBody, hbody]

/-- The decoder and the encoder are inverse to each other on the instructions in range (R55). -/
theorem decodeFrame_eq_ok_iff_encode {f : List Byte} {r : Request} :
    decodeFrame f = .ok r ↔ encode r.seq r.instr = f ∧ r.instr.wf = true := by
  rw [decodeFrame_eq_ok]
  constructor
  · rintro ⟨body, rfl, hbody⟩
    obtain ⟨rfl, hwf⟩ := bodyOf_of_decodeBody hbody
    exact ⟨encode_eq_sealBody r.seq r.instr, hwf⟩
  · rintro ⟨rfl, hwf⟩
    exact ⟨bodyOf r.seq r.instr, encode_eq_sealBody r.seq r.instr, decodeBody_bodyOf r.seq hwf⟩

/-! ## The well-formed frames of R55 -/

/-- R47: a sequence of `n + 1` bytes that ends in the CRC of the bytes before it is a sealed body of `n` bytes. -/
theorem exists_sealBody {f : List Byte} {n : Nat} (hlen : f.length = n + 1) (hcrc : f.getD n 0 = crc8 (f.take n)) :
    ∃ body : List Byte, body.length = n ∧ f = sealBody body := by
  refine ⟨f.take n, by simp [hlen], ?_⟩
  have hlast : f[n]'(by omega) = crc8 (f.take n) := by
    rw [← hcrc, List.getD_eq_getElem]
  rw [sealBody, ← hlast, List.take_concat_get', List.take_of_length_le (by omega)]

/-- The well-formed SYNC frames with the sequence number `q` are the one that the encoder writes. -/
theorem isSyncFrame_iff (f : List Byte) (q : SeqNo) :
    IsSyncFrame f ∧ q.toNat = (f.getD 1 0).toNat >>> 6 ↔ encode q .sync = f := by
  constructor
  · rintro ⟨⟨hlen, hstart, hcode, hpayload, hcrc⟩, hq⟩
    obtain ⟨body, hbody, rfl⟩ := exists_sealBody hlen hcrc
    match body, hbody with
    | start :: cmd :: payload, hbody =>
      have hstart : start = Config.startByte := hstart
      have hcmd : q ++ Config.cmdSync = cmd := (append_eq_iff q Config.cmdSync cmd).2 ⟨hcode, hq⟩
      have hp : payload.length = 16 := by simpa using hbody
      have hpayload : payload = syncPayload := by
        simpa [sealBody, hp, List.take_append, syncPayload, Config.syncTail] using hpayload
      rw [hstart, ← hcmd, hpayload]
      rfl
  · rintro rfl
    obtain ⟨hcode, hq⟩ := (append_eq_iff q Config.cmdSync _).1 rfl
    exact ⟨⟨Laws.FrameLength.sync q, rfl, hcode, rfl, rfl⟩, hq⟩

/-- R55: `(hi << 8) | lo` is the one number in range whose big-endian bytes are these two. -/
theorem word_eq_iff_be16_mask16 (hi lo : Byte) (v : Nat) :
    v = (hi.toNat <<< 8) ||| lo.toNat ↔ v < 65536 ∧ be16 (mask16 v) = [hi, lo] := by
  rw [← fromBe16_toNat]
  constructor
  · rintro rfl
    exact ⟨(fromBe16 hi lo).isLt, by rw [mask16_of_toNat, be16_fromBe16]⟩
  · rintro ⟨hv, h⟩
    simp only [be16, List.cons.injEq, and_true] at h
    obtain ⟨rfl, rfl⟩ := h
    rw [fromBe16_be16, mask16_toNat, Nat.mod_eq_of_lt hv]

/-- The well-formed READL frames with these fields are the one that the encoder writes, the operands in range. -/
theorem isReadlFrame_iff (f : List Byte) (q : SeqNo) (a b n : Nat) :
    (IsReadlFrame f ∧ q.toNat = (f.getD 1 0).toNat >>> 6 ∧ a = wordAt f 2 ∧ b = wordAt f 4 ∧ n = wordAt f 6) ↔
      encode q (.readl a b n) = f ∧ (Instr.readl a b n).wf = true := by
  rw [wf_readl_iff]
  constructor
  · rintro ⟨⟨hlen, hstart, hcode, hcrc⟩, hq, ha, hb, hn⟩
    obtain ⟨body, hbody, rfl⟩ := exists_sealBody hlen hcrc
    match body, hbody with
    | [start, cmd, s₁, s₀, o₁, o₀, l₁, l₀], _ =>
      have hstart : start = Config.startByte := hstart
      have hcmd : q ++ Config.cmdReadl = cmd := (append_eq_iff q Config.cmdReadl cmd).2 ⟨hcode, hq⟩
      obtain ⟨ha, hs⟩ := (word_eq_iff_be16_mask16 s₁ s₀ a).1 ha
      obtain ⟨hb, ho⟩ := (word_eq_iff_be16_mask16 o₁ o₀ b).1 hb
      obtain ⟨hn, hl⟩ := (word_eq_iff_be16_mask16 l₁ l₀ n).1 hn
      refine ⟨?_, ha, hb, hn⟩
      rw [hstart, ← hcmd, encode, payloadOf, readlPayload, hs, ho, hl]
      rfl
  · rintro ⟨rfl, ha, hb, hn⟩
    obtain ⟨hcode, hq⟩ := (append_eq_iff q Config.cmdReadl _).1 rfl
    exact ⟨⟨Laws.FrameLength.readl a b n q, rfl, hcode, rfl⟩, hq, (word_eq_iff_be16_mask16 _ _ a).2 ⟨ha, rfl⟩,
      (word_eq_iff_be16_mask16 _ _ b).2 ⟨hb, rfl⟩, (word_eq_iff_be16_mask16 _ _ n).2 ⟨hn, rfl⟩⟩

/-! ## Frames that no instruction has -/

/-- A start byte with a command byte of another code is no body (R43, R50). -/
theorem decodeBody_reservedCode {cmd : Byte} (payload : List Byte) (h₁ : codeField cmd ≠ Config.cmdSync)
    (h₂ : codeField cmd ≠ Config.cmdReadl) :
    decodeBody (Config.startByte :: cmd :: payload) = .error (.reservedCode (codeField cmd)) := by
  simp [decodeBody, h₁, h₂]

/-- What is wrong with the body is what is wrong with the frame, whatever its trailer. -/
theorem decodeFrame_of_body_error {f : List Byte} {e : DecodeError} (h : decodeBody f.dropLast = .error e) :
    decodeFrame f = .error e := by
  simp [decodeFrame, h]

end Sys2Proof

/-! SUPPORT. Masking and presenting a table word, for the operations. -/

namespace Sys2Proof.Machine

/-- R91: an operation acts on its masked operands. -/
theorem exec_masked (i : Instr) (s : State) : exec i.masked s = exec i s := by
  cases i with
  | sync => rfl
  | readl a b n => simp [exec, execReadl, readlRequest, Instr.masked, mask16_mod]

theorem withFetchWord_of_decodes {nbits w : Nat} {i : Instr} (h : decodeTableWord nbits w = some i) (s : State) :
    s.withFetchWord nbits w = { s with inputs := .command i :: s.inputs } := by
  simp [State.withFetchWord, h]

end Sys2Proof.Machine

/-! The settled statements about the encoding (spec/30_encoding.md). -/

namespace Sys2Proof.Proofs

open Sys2Proof.Machine Sys2Proof.Safety

/-- Settles O13: encoding and decoding are inverse to each other, read from the encoder's side. -/
theorem decodeEncode : Obligations.DecodeEncode :=
  fun _ _ hwf => decodeFrame_eq_ok_iff_encode.2 ⟨rfl, hwf⟩

/-- Settles O14: the same equivalence, read from the decoder's side. -/
theorem encodeDecode : Obligations.EncodeDecode := fun _ _ h => decodeFrame_eq_ok_iff_encode.1 h

/-- Settles O11: the command byte over its four sequence numbers, the operands by the arithmetic of `be16`. -/
theorem readlRequestBytes : Obligations.ReadlRequestBytes := by
  intro q a b n
  have hcmd : ∀ q : SeqNo, q ++ Config.cmdReadl = BitVec.ofNat 8 (q.toNat * 64 + 0x3C) := by decide
  rw [encode, codeOf, payloadOf, readlPayload, hcmd, be16_mask16, be16_mask16, be16_mask16]
  rfl

/-- Settles O15: both the decoder and the rule's words single out the frame that the encoder writes. -/
theorem decoderAcceptsWellFormedFrames : Obligations.DecoderAcceptsWellFormedFrames := by
  refine ⟨fun f q => ?_, fun f q a b n => ?_⟩
  · rw [decodeFrame_eq_ok_iff_encode, isSyncFrame_iff]
    exact and_iff_left rfl
  · rw [decodeFrame_eq_ok_iff_encode, isReadlFrame_iff]

/-- Settles O8: the command byte is the concatenation of its two fields. -/
theorem commandByteFields : Obligations.CommandByteFields := by
  intro q code
  rw [cmdByte_eq_append]
  refine ⟨BitVec.toNat_append q code, seqField_append q code, codeField_append q code, ?_⟩
  rintro payload s rfl
  simp [buildFrame, frameBytes, cmdByte_eq_append]

/-- Settles O16: the code is looked at before payload and trailer, and the encoder writes the code of an instruction. -/
theorem reservedCodesHaveNoMeaning : Obligations.ReservedCodesHaveNoMeaning := by
  refine ⟨fun cmd rest hrest h₁ h₂ => ?_, fun q i => ?_⟩
  · apply decodeFrame_of_body_error
    rw [List.dropLast_cons_of_ne_nil (by simp), List.dropLast_cons_of_ne_nil hrest]
    exact decodeBody_reservedCode rest.dropLast h₁ h₂
  · have hcode : codeField ((encode q i).getD 1 0) = codeOf i := codeField_append q (codeOf i)
    rw [hcode]
    cases i with
    | sync => exact .inl rfl
    | readl a b n => exact .inr rfl

/-- Settles O17: masking changes neither the frame nor the operation. -/
theorem operandsAreTruncated : Obligations.OperandsAreTruncated := by
  intro a b n
  obtain ⟨-, -, hencode⟩ := Laws.Masking.readl a b n
  exact ⟨fun q => (hencode q).symm, fun s => (exec_masked (.readl a b n) s).symm⟩

/-- Settles O18: each frame is what the encoder writes for the command, and the table words are read by evaluation. -/
theorem writtenOutWordsDecode : Obligations.WrittenOutWordsDecode :=
  ⟨decodeFrame_eq_ok_iff_encode.2 ⟨by decide +kernel, rfl⟩,
    decodeFrame_eq_ok_iff_encode.2 ⟨by decide +kernel, by decide⟩,
    decodeFrame_eq_ok_iff_encode.2 ⟨by decide +kernel, by decide⟩, by decide, by decide⟩

/-- Settles O20: the word puts its instruction in front of the inputs, and the step takes it off again. -/
theorem stepRunsTheDecodedWord : Obligations.StepRunsTheDecodedWord := by
  intro s nbits w i h
  rw [withFetchWord_of_decodes h]
  exact step_command rfl

end Sys2Proof.Proofs

/-! SUPPORT. The laws of the CRC engine: one shift as arithmetic and as a permutation, the byte update as the table `T`
and as an injection in each argument, the register over appended and over sealed sequences. Two ideas carry the
statements. The polynomial has a constant term, so the bit that a shift drops stays readable in bit 0 and nothing is
lost; and a sequence is followed by its own CRC exactly when the register ends in the residue. -/

namespace Sys2Proof

/-! ## One shift -/

/-- The shift of R61 in the arithmetic of natural numbers. -/
def crcShiftNat (r : Nat) : Nat := if r.testBit 7 then ((r <<< 1) &&& 0xFF) ^^^ 0x1D else (r <<< 1) &&& 0xFF

theorem crcShift_toNat (r : Byte) : (crcShift r).toNat = crcShiftNat r.toNat := by
  have hmask : (r <<< 1).toNat = (r.toNat <<< 1) &&& 0xFF := by
    rw [BitVec.toNat_shiftLeft]
    exact (Nat.and_two_pow_sub_one_eq_mod _ 8).symm
  unfold crcShift crcShiftNat
  rw [BitVec.testBit_toNat]
  split
  · rw [BitVec.toNat_xor, hmask]
    rfl
  · exact hmask

theorem repeat_crcShift_toNat (n : Nat) (r : Byte) :
    (Nat.repeat crcShift n r).toNat = Nat.repeat crcShiftNat n r.toNat := by
  induction n with
  | zero => rfl
  | succ n ih => rw [Nat.repeat, crcShift_toNat, ih, Nat.repeat]

/-- The bit shifted out of bit 7 is bit 0 of the result: the constant term of the polynomial. -/
theorem crcShift_bit_zero (r : Byte) : (crcShift r).getLsbD 0 = r.getLsbD 7 := by
  unfold crcShift
  split
  · next h => simpa [Config.crcPoly] using h.symm
  · next h => simpa using h

theorem byte_ext_shiftLeft_one {r r' : Byte} (hlow : r <<< 1 = r' <<< 1) (htop : r.getLsbD 7 = r'.getLsbD 7) :
    r = r' := by
  apply BitVec.eq_of_getLsbD_eq
  intro i hi
  by_cases h : i = 7
  · rw [h, htop]
  · have hbit := congrArg (fun v : Byte => v.getLsbD (i + 1)) hlow
    have hi' : i + 1 < 8 := by omega
    simpa [hi', BitVec.getLsbD_eq_getElem hi] using hbit

theorem crcShift_injective : Function.Injective crcShift := by
  intro r r' h
  have htop : r.getLsbD 7 = r'.getLsbD 7 := by rw [← crcShift_bit_zero, h, crcShift_bit_zero]
  refine byte_ext_shiftLeft_one ?_ htop
  unfold crcShift at h
  rw [htop] at h
  split at h
  · exact (BitVec.xor_left_inj _).1 h
  · exact h

theorem repeat_crcShift_injective (n : Nat) : Function.Injective (Nat.repeat crcShift n) := by
  induction n with
  | zero => exact Function.injective_id
  | succ n ih => exact crcShift_injective.comp ih

/-! ## The byte update and the table -/

/-- R63: the table drives the byte update. -/
theorem upd_eq_crcEntry (reg b : Byte) : upd reg b = crcEntry (reg ^^^ b) := by
  simp [crcEntry, upd]

/-- R63: `T` loses nothing, since no shift does. -/
theorem crcEntry_injective : Function.Injective crcEntry := by
  intro i j h
  simpa [crcEntry, upd] using repeat_crcShift_injective 8 h

theorem crcEntry_bijective : Function.Bijective crcEntry := Finite.injective_iff_bijective.1 crcEntry_injective

theorem upd_inj_byte {reg x y : Byte} : upd reg x = upd reg y ↔ x = y := by
  rw [upd_eq_crcEntry, upd_eq_crcEntry, crcEntry_injective.eq_iff, BitVec.xor_right_inj]

theorem upd_inj_reg {r r' b : Byte} : upd r b = upd r' b ↔ r = r' := by
  rw [upd_eq_crcEntry, upd_eq_crcEntry, crcEntry_injective.eq_iff, BitVec.xor_left_inj]

/-- R63: the printed listing, all of it at once. -/
theorem crcListing_eq_map : crcListing = (List.range 256).map (fun k => crcEntry (BitVec.ofNat 8 k)) := by
  decide +kernel

theorem crcListing_length : crcListing.length = 256 := by
  rw [crcListing_eq_map, List.length_map, List.length_range]

theorem crcListing_getElem? (i : Byte) : crcListing[i.toNat]? = some (crcEntry i) := by
  rw [crcListing_eq_map, List.getElem?_map, List.getElem?_range i.isLt]
  simp

theorem updByTable_eq_upd : updByTable = upd := by
  funext reg b
  rw [updByTable, List.getD_eq_getElem?_getD, crcListing_getElem?, upd_eq_crcEntry]
  rfl

/-! ## The register over a sequence -/

@[simp] theorem crcRun_nil (reg : Byte) : crcRun reg [] = reg := rfl

@[simp] theorem crcRun_cons (reg b : Byte) (s : List Byte) : crcRun reg (b :: s) = crcRun (upd reg b) s := rfl

/-- R64: the streaming law. -/
theorem crcRun_append (reg : Byte) (a b : List Byte) : crcRun reg (a ++ b) = crcRun (crcRun reg a) b :=
  List.foldl_append

theorem crc8_append (a b : List Byte) : crc8 (a ++ b) = crcContinue (crcRun 0xFF a) b :=
  congrArg (· ^^^ Config.crcXorOut) (crcRun_append 0xFF a b)

/-- R65: the CRC of a single byte is read off the table. -/
theorem crc8_singleton (b : Byte) : crc8 [b] = crcEntry (0xFF ^^^ b) ^^^ 0xFF :=
  congrArg (· ^^^ (0xFF : Byte)) (upd_eq_crcEntry 0xFF b)

theorem crcRun_inj_reg {r r' : Byte} (s : List Byte) : crcRun r s = crcRun r' s ↔ r = r' := by
  induction s generalizing r r' with
  | nil => rfl
  | cons b s ih => rw [crcRun_cons, crcRun_cons, ih, upd_inj_reg]

/-- A changed byte changes the register where it goes in, and no later byte makes up for it. -/
theorem crcRun_inj_byte {reg x y : Byte} (a b : List Byte) :
    crcRun reg (a ++ x :: b) = crcRun reg (a ++ y :: b) ↔ x = y := by
  rw [crcRun_append, crcRun_append, crcRun_cons, crcRun_cons, crcRun_inj_reg, upd_inj_byte]

/-! ## The residue -/

theorem crcEntry_ff : crcEntry 0xFF = 0xC4 := by decide

/-- R66: the register meets its own complement. -/
theorem upd_complement (r : Byte) : upd r (r ^^^ 0xFF) = 0xC4 := by
  rw [upd_eq_crcEntry, ← BitVec.xor_assoc, BitVec.xor_self, BitVec.zero_xor, crcEntry_ff]

/-- R66 and its converse: `c` is the CRC of `s` exactly when `s` followed by `c` leaves the residue. -/
theorem crc8_eq_iff_residue (s : List Byte) (c : Byte) : crc8 s = c ↔ crcRun 0xFF (s ++ [c]) = 0xC4 := by
  rw [crcRun_append, crcRun_cons, crcRun_nil, ← upd_complement (crcRun 0xFF s), upd_inj_byte]
  exact eq_comm

theorem crcRun_sealBody (body : List Byte) : crcRun 0xFF (sealBody body) = 0xC4 :=
  (crc8_eq_iff_residue body (crc8 body)).1 rfl

/-- R66: the CRC of a sealed body is the residue under the final complement. -/
theorem crc8_sealBody (body : List Byte) : crc8 (sealBody body) = 0x3B :=
  congrArg (· ^^^ Config.crcXorOut) (crcRun_sealBody body)

/-- R66: after a sealed body only what follows counts. -/
theorem crc8_sealBody_append (body payload : List Byte) :
    crc8 (sealBody body ++ payload) = crcContinue 0xC4 payload := by
  rw [crc8_append, crcRun_sealBody]

end Sys2Proof

/-! SUPPORT. READL on a complete response: the operation ends with the verdict on it, and one wrong byte turns the
verdict. -/

namespace Sys2Proof.Machine

open Sys2Proof.Safety

/-- R96, R97: a response is accepted exactly when the register, run over FRAME and the whole response, ends in the
residue. This treats the payload and the CRC byte alike. -/
theorem extendedCrc_eq_iff_residue (frame payload : List Byte) (c : Byte) :
    extendedCrc frame payload = c ↔ crcRun 0xFF (frame ++ (payload ++ [c])) = 0xC4 := by
  rw [extendedCrc, crc8_eq_iff_residue, List.append_assoc]

/-- R97, R98: a verdict that hands over bytes means that the extended CRC was the one received. -/
theorem extendedCrc_eq_of_verdict {frame payload p : List Byte} {c : Byte}
    (h : verdict frame payload c = .payload p) : extendedCrc frame payload = c := by
  unfold verdict at h
  split at h
  · next hc => exact hc
  · cases h

theorem verdict_of_ne {frame payload : List Byte} {c : Byte} (h : extendedCrc frame payload ≠ c) :
    verdict frame payload c = .error .crc := if_neg h

/-- Of two responses that differ in one byte, the extended check accepts at most one. -/
theorem extendedCrc_ne_of_byte_ne {frame payload payload' a b : List Byte} {c c' x y : Byte} (hxy : x ≠ y)
    (hresp : a ++ x :: b = payload ++ [c]) (hresp' : a ++ y :: b = payload' ++ [c'])
    (hacc : extendedCrc frame payload = c) : extendedCrc frame payload' ≠ c' := by
  rw [extendedCrc_eq_iff_residue, ← hresp, ← List.append_assoc] at hacc
  rw [Ne, extendedCrc_eq_iff_residue, ← hresp', ← List.append_assoc, ← hacc, crcRun_inj_byte]
  exact hxy.symm

/-- With the response there and nothing to fail, READL ends with the verdict on the response (R92 to R98). -/
theorem exec_readl_answered {s : State} (slave offset : Nat) {length : Nat} {payload rest : List Byte} {c : Byte}
    (hs : Ready s) (hw : WriteAccepted s) (hr : s.tp.readFault = none) (hrx : s.tp.rx = payload ++ c :: rest)
    (hl : payload.length = length % 65536) :
    exec (.readl slave offset length) s = .next { s with
      seq := s.seq + 1, phase := .idle, tp := { s.tp with rx := rest }
      events := s.events ++ pendingTrace s.seq slave offset length ++
        [.result (verdict (encode s.seq (.readl slave offset length)) payload c)] } := by
  obtain ⟨t, ht⟩ : ∃ t, exec (.readl slave offset length) s = .next t := ⟨_, exec_ready hs⟩
  rw [ht]
  cases exec_outcome ht with
  | unsent _ e hf => exact absurd hw (not_writeAccepted_of_writeFails hf)
  | readFailed _ _ _ e _ hf =>
    rw [hr] at hf
    cases hf
  | readAnswered _ _ _ payload' rest' c' _ _ hrx' hl' =>
    obtain ⟨rfl, hcr⟩ := List.append_inj (hrx.symm.trans hrx') (hl.trans hl'.symm)
    cases hcr
    rfl
  | readBlocked _ _ _ _ _ hshort =>
    rw [hrx, List.length_append, List.length_cons] at hshort
    omega

/-- A READL that handed over bytes found a whole response in the receive path, and accepted it. -/
theorem OpOutcome.accepted {s t : State} {slave offset length : Nat} {p : List Byte}
    (h : OpOutcome s (.readl slave offset length) t) (hp : t.events.getLast? = some (.result (.payload p))) :
    WriteAccepted s ∧ s.tp.readFault = none ∧ ∃ payload rest c,
      s.tp.rx = payload ++ c :: rest ∧ payload.length = length % 65536 ∧
      extendedCrc (encode s.seq (.readl slave offset length)) payload = c := by
  cases h with
  | unsent | readFailed | readBlocked => simp [pendingTrace] at hp
  | readAnswered _ _ _ payload rest c hw hr hrx hl =>
    have hv : verdict (encode s.seq (.readl slave offset length)) payload c = .payload p := by simpa using hp
    exact ⟨hw, hr, payload, rest, c, hrx, hl, extendedCrc_eq_of_verdict hv⟩

end Sys2Proof.Machine

/-! The settled statements about the CRC (spec/40_crc8.md). -/

namespace Sys2Proof.Proofs

open Sys2Proof.Machine Sys2Proof.Safety

/-- Settles O2: each shift is the shift over natural numbers, and `upd` starts from `reg ^ b`. -/
theorem updIsTheShiftLoop : Obligations.UpdIsTheShiftLoop := by
  intro reg b
  refine ⟨?_, ?_, ?_⟩
  · rw [← BitVec.toNat_xor]
    exact repeat_crcShift_toNat 8 (reg ^^^ b)
  · simp [upd_eq_crcEntry]
  · exact upd_eq_crcEntry reg b

/-- Settles O3: the listing by evaluation, the permutation because no shift loses a bit. -/
theorem crcListingIsTheTable : Obligations.CrcListingIsTheTable :=
  ⟨crcListing_length, crcListing_getElem?, fun _ => rfl, upd_eq_crcEntry, crcEntry_bijective, by decide, by decide,
    by decide, crcEntry_ff⟩

/-- Settles O5: every frame is a sealed body, and a sealed body leaves the residue. -/
theorem crcResidue : Obligations.CrcResidue := by
  refine ⟨fun r => ⟨(upd_complement r).trans crcEntry_ff.symm, crcEntry_ff⟩,
    fun body => ⟨crcRun_sealBody body, crc8_sealBody body, crc8_sealBody_append body⟩, fun code p s => ⟨_, rfl⟩,
    fun q q' i i' payload => ?_⟩
  rw [extendedCrc, extendedCrc, encode_eq_sealBody, encode_eq_sealBody, crc8_sealBody_append, crc8_sealBody_append]

/-- Settles O6: the two engines make the same byte update. -/
theorem tableDrivenCrcIsCrc : Obligations.TableDrivenCrcIsCrc := by
  intro s
  rw [crc8ByTable, updByTable_eq_upd]
  rfl

/-- Settles O7: the register is injective in every byte fed to it. -/
theorem crcDetectsAByteChange : Obligations.CrcDetectsAByteChange := by
  intro a b x y hxy h
  exact hxy ((crcRun_inj_byte a b).1 ((BitVec.xor_left_inj _).1 h))

/-- Settles O36: the accepted response leaves the residue, so the changed one does not, wherever the byte stands. -/
theorem oneWrongByteIsDetected : Obligations.OneWrongByteIsDetected := by
  intro s t slave offset length a b rest p x y hxy hrx hlen hexec hp
  obtain ⟨hs, -⟩ := exec_next hexec
  obtain ⟨hw, hr, payload, rest', c, hrx₁, hl, hacc⟩ := (exec_outcome hexec).accepted hp
  have hsplit : (a ++ x :: b) ++ rest = (payload ++ [c]) ++ rest' := by simpa using hrx.symm.trans hrx₁
  obtain ⟨hresp, rfl⟩ := List.append_inj hsplit (by simp [hlen, hl])
  obtain ⟨payload', c', hresp', hl'⟩ := exists_split (resp := a ++ y :: b) (n := length % 65536) (by simpa using hlen)
  have hrx' : a ++ y :: (b ++ rest) = payload' ++ c' :: rest := by
    simpa using congrArg (· ++ rest) hresp'
  rw [exec_readl_answered slave offset hs hw hr hrx₁ hl] at hexec
  cases hexec
  have hexec' := exec_readl_answered (s := { s with tp := { s.tp with rx := a ++ y :: (b ++ rest) } }) slave offset
    hs hw hr hrx' hl'
  rw [verdict_of_ne (extendedCrc_ne_of_byte_ne hxy hresp hresp' hacc)] at hexec'
  rw [hexec']
  simp [pendingTrace]

/-- Settles O1: a one-byte sequence is one table entry; the values by evaluation. -/
theorem crcFixedPoints : Obligations.CrcFixedPoints :=
  ⟨⟨rfl, by decide⟩, ⟨crc8_singleton 0x00, by decide⟩, ⟨crc8_singleton 0xFF, by decide⟩, by decide, by decide +kernel⟩

/-- Settles O4: by the streaming law of the register. That the register is what must be kept is seen on the request and
the payload of example S1. -/
theorem crcStreams : Obligations.CrcStreams :=
  ⟨fun a b reg => crcRun_append reg a b, crc8_append, crc8_append,
    [0x55, 0x3C, 0x00, 0x00, 0x00, 0x00, 0x00, 0x04, 0x09], [0x00, 0x00, 0xA0, 0x41], by decide +kernel⟩

end Sys2Proof.Proofs

/-! SUPPORT. What the frame encoder puts into a frame, and what every operation does first: it advances `SEQ`, writes the
one frame that carries the old value, and then only reads and ends. From this follow the numbers that the frames of a
legal trace carry. -/

namespace Sys2Proof

/-- R42, R71: the command byte as a number. -/
theorem cmdByte_eq_ofNat :
    ∀ (q : SeqNo) (c : Code), Machine.cmdByte q c = BitVec.ofNat 8 (q.toNat * 64 + c.toNat) := by decide

/-- R74: the advance of `SEQ` as a number. -/
theorem seqNo_add_one_toNat (q : SeqNo) : (q + 1).toNat = (q.toNat + 1) % 4 := BitVec.toNat_add q 1

theorem seqNo_add_one_add_ofNat (q : SeqNo) (k : Nat) : q + 1 + BitVec.ofNat 2 k = q + BitVec.ofNat 2 (k + 1) := by
  rw [BitVec.add_assoc, Nat.add_comm, BitVec.ofNat_add]
  rfl

/-- R76: `n + 1` consecutive numbers from `q` on are `q` and `n` consecutive numbers from `q + 1` on. -/
theorem map_range_succ_seqNo {α : Type} (g : SeqNo → α) (q : SeqNo) (n : Nat) :
    (List.range (n + 1)).map (fun k => g (q + BitVec.ofNat 2 k)) =
      g q :: (List.range n).map (fun k => g (q + 1 + BitVec.ofNat 2 k)) := by
  simp only [seqNo_add_one_add_ofNat]
  rw [List.range_succ_eq_map, List.map_cons, List.map_map, BitVec.add_zero]
  rfl

@[simp] theorem sealBody_length (body : List Byte) : (sealBody body).length = body.length + 1 := by simp [sealBody]

theorem frameBytes_eq_sealBody (q : SeqNo) (code : Code) (payload : List Byte) :
    Machine.frameBytes q code payload = sealBody (Config.startByte :: (q ++ code) :: payload) := by
  rw [← cmdByte_eq_append]
  rfl

/-- R77: sealing two bodies that differ in one byte gives two frames that differ in that byte and in the CRC byte, since
the CRC sees the change. -/
theorem sealBody_getD_ne_iff {x y : Byte} (hxy : x ≠ y) (a b : List Byte) (k : Nat) :
    (sealBody (a ++ x :: b)).getD k 0 ≠ (sealBody (a ++ y :: b)).getD k 0 ↔
      k = a.length ∨ k = a.length + b.length + 1 := by
  have hcrc : crc8 (a ++ x :: b) ≠ crc8 (a ++ y :: b) := Proofs.crcDetectsAByteChange a b x y hxy
  have hseal (z : Byte) : sealBody (a ++ z :: b) = a ++ z :: (b ++ [crc8 (a ++ z :: b)]) := by simp [sealBody]
  rw [hseal, hseal]
  by_cases hbefore : k < a.length
  · rw [List.getD_append _ _ _ _ hbefore, List.getD_append _ _ _ _ hbefore]
    exact iff_of_false (fun h => h rfl) (by omega)
  · obtain ⟨j, rfl⟩ := Nat.exists_eq_add_of_le (Nat.le_of_not_lt hbefore)
    rw [List.getD_append_right _ _ _ _ (Nat.le_add_right ..), List.getD_append_right _ _ _ _ (Nat.le_add_right ..),
      Nat.add_sub_cancel_left]
    cases j with
    | zero => simpa using hxy
    | succ j =>
      simp only [List.getD_cons_succ]
      rcases Nat.lt_trichotomy j b.length with hj | rfl | hj
      · rw [List.getD_append _ _ _ _ hj, List.getD_append _ _ _ _ hj]
        exact iff_of_false (fun h => h rfl) (by omega)
      · simpa [Nat.add_assoc] using hcrc
      · have hend (c : Byte) : (b ++ [c]).length ≤ j := by simpa using hj
        rw [List.getD_eq_default _ _ (hend _), List.getD_eq_default _ _ (hend _)]
        exact iff_of_false (fun h => h rfl) (by omega)

/-- R51, R55: whatever its operands, the frame of an instruction is read, as the masked instruction. -/
theorem decodeFrame_encode_masked (q : SeqNo) (i : Instr) : decodeFrame (encode q i) = .ok ⟨q, i.masked⟩ := by
  have hmask : Laws.Masking.Statement i := by
    cases i with
    | sync => exact Laws.Masking.sync
    | readl a b n => exact Laws.Masking.readl a b n
  obtain ⟨hwf, -, hencode⟩ := hmask
  exact decodeFrame_eq_ok_iff_encode.2 ⟨hencode q, hwf⟩

end Sys2Proof

namespace Sys2Proof.Safety

open Sys2Proof.Machine

/-! ## The frames in a record -/

theorem framesOf_append (before tail : List Event) : framesOf (before ++ tail) = framesOf before ++ framesOf tail := by
  induction before with
  | nil => rfl
  | cons e before ih => cases e <;> simp [framesOf, ih]

/-- An effect that follows the write of an operation's frame: the request of a read, or the result. -/
def AfterWrite : Event → Prop
  | .tpRead _ | .result _ => True
  | .seqChanged _ | .tpWrite _ _ => False

theorem framesOf_of_afterWrite {events : List Event} (h : ∀ e ∈ events, AfterWrite e) : framesOf events = [] := by
  induction events with
  | nil => rfl
  | cons e events ih =>
    obtain ⟨he, hrest⟩ := List.forall_mem_cons.1 h
    cases e with
    | tpRead | result => exact ih hrest
    | seqChanged | tpWrite => exact he.elim

/-- The effects of one operation issued when `SEQ` was `q`, whatever its outcome: the advance of `SEQ`, the write of the
one frame, with the old value, and nothing of either kind after that (R76, R78). -/
def AdvancesThenWrites (q : SeqNo) (i : Instr) (tail : List Event) : Prop :=
  ∃ a rest, tail = .seqChanged (q + 1) :: .tpWrite (encode q i) a :: rest ∧ ∀ e ∈ rest, AfterWrite e

theorem OpTrace.advancesThenWrites {q : SeqNo} {i : Instr} {tail : List Event} (h : OpTrace q i tail) :
    AdvancesThenWrites q i tail := by
  cases h <;> exact ⟨_, _, rfl, by simp [AfterWrite]⟩

theorem pendingTrace_advancesThenWrites (q : SeqNo) (a b n : Nat) :
    AdvancesThenWrites q (.readl a b n) (pendingTrace q a b n) :=
  ⟨_, _, rfl, by simp [AfterWrite]⟩

theorem AdvancesThenWrites.framesOf_eq {q : SeqNo} {i : Instr} {tail : List Event} (h : AdvancesThenWrites q i tail) :
    framesOf tail = [encode q i] := by
  obtain ⟨a, rest, rfl, hrest⟩ := h
  simp [framesOf, framesOf_of_afterWrite hrest]

/-! ## The numbers of the frames -/

/-- The frames are instructions' frames with the sequence numbers 0, 1, 2, 3, 0, ..., and `q` is the next number. -/
def NumberedTo (frames : List (List Byte)) (q : SeqNo) : Prop :=
  q = BitVec.ofNat 2 frames.length ∧
  ∀ k f, frames[k]? = some f → ∃ i, f = encode (BitVec.ofNat 2 k) i

theorem numberedTo_nil : NumberedTo [] Config.seqReset := ⟨rfl, by simp⟩

theorem NumberedTo.snoc {frames : List (List Byte)} {q : SeqNo} (h : NumberedTo frames q) (i : Instr) :
    NumberedTo (frames ++ [encode q i]) (q + 1) := by
  obtain ⟨rfl, hframes⟩ := h
  refine ⟨by simp [BitVec.ofNat_add], fun k f hk => ?_⟩
  rcases Nat.lt_trichotomy k frames.length with hlt | rfl | hgt
  · rw [List.getElem?_append_left hlt] at hk
    exact hframes k f hk
  · rw [List.getElem?_concat_length] at hk
    cases hk
    exact ⟨i, rfl⟩
  · rw [List.getElem?_eq_none (by simpa using hgt)] at hk
    cases hk

/-- R76: an operation takes the next number, whatever its outcome, and nothing else takes one. -/
theorem Legal.numberedTo {events : List Event} {q : SeqNo} {p : Phase} (h : Legal events q p) :
    NumberedTo (framesOf events) q := by
  induction h with
  | fresh => exact numberedTo_nil
  | ended _ op ih =>
    rw [framesOf_append, op.advancesThenWrites.framesOf_eq]
    exact ih.snoc _
  | blocked _ a b n ih =>
    rw [framesOf_append, (pendingTrace_advancesThenWrites _ a b n).framesOf_eq]
    exact ih.snoc _

end Sys2Proof.Safety

namespace Sys2Proof.Machine

open Sys2Proof.Safety

/-- R78: the effects of an operation, ended or blocked, begin with the advance and the write. -/
theorem OpOutcome.advancesThenWrites {s t : State} {i : Instr} (h : OpOutcome s i t) :
    ∃ tail, t.events = s.events ++ tail ∧ AdvancesThenWrites s.seq i tail := by
  obtain ⟨tail, he, ⟨-, op⟩ | ⟨a, b, n, rfl, -, rfl⟩⟩ := h.closedList
  · exact ⟨tail, he, op.advancesThenWrites⟩
  · exact ⟨_, he, pendingTrace_advancesThenWrites s.seq a b n⟩

/-- R76: every operation adds its one frame to those built. -/
theorem OpOutcome.framesOf_events {s t : State} {i : Instr} (h : OpOutcome s i t) :
    framesOf t.events = framesOf s.events ++ [encode s.seq i] := by
  obtain ⟨tail, he, htail⟩ := h.advancesThenWrites
  rw [he, framesOf_append, htail.framesOf_eq]

/-- A SYNC whose write is accepted leaves the transport as it is (R80, R82, R84). -/
theorem OpOutcome.sync_tp {s t : State} (h : OpOutcome s .sync t) (hw : WriteAccepted s) : t.tp = s.tp := by
  cases h with
  | unsent _ e hf => exact absurd hw (not_writeAccepted_of_writeFails hf)
  | syncDone => rfl

theorem run_succ_of_step {s t : State} (h : step s = .next t) (n : Nat) :
    Host.Core.run core (n + 1) s = Host.Core.run core n t := by
  have h' : core.step s = .next t := h
  simp only [Host.Core.run, h']

end Sys2Proof.Machine

/-! The settled statements about the frame encoder (spec/41_frame_encoder.md). -/

namespace Sys2Proof.Proofs

open Sys2Proof.Machine Sys2Proof.Safety

/-- Settles O10: the two command bytes have different sequence fields, so the two bodies differ in one byte. -/
theorem consecutiveFramesDifferInTwoBytes : Obligations.ConsecutiveFramesDifferInTwoBytes := by
  intro code payload s f g
  have hf : f = sealBody ([Config.startByte] ++ (s.seq ++ code) :: payload) := frameBytes_eq_sealBody ..
  have hg : g = sealBody ([Config.startByte] ++ (s.seq + 1 ++ code) :: payload) := frameBytes_eq_sealBody ..
  have hcmd : s.seq ++ code ≠ s.seq + 1 ++ code := by
    intro h
    have hseq := congrArg seqField h
    rw [seqField_append, seqField_append] at hseq
    simp at hseq
  rw [hf, hg]
  refine ⟨by simp, fun k _ => ?_, ?_, ?_⟩
  · rw [sealBody_getD_ne_iff hcmd]
    simp [Nat.add_comm]
  · exact (seqField_append ..).trans (congrArg (· + 1) (seqField_append ..).symm)
  · exact (codeField_append ..).trans (codeField_append ..).symm

/-- Settles O24: by induction on the number of SYNCs, each of which leaves a state that accepts the next one. -/
theorem syncsCountModFour : Obligations.SyncsCountModFour := by
  intro n
  induction n with
  | zero =>
    intro s rest hs _ hi
    have hseq : s.seq.toNat < 4 := s.seq.isLt
    exact ⟨s, rfl, by omega, hs, rfl, hi, by simp⟩
  | succ n ih =>
    intro s rest hs hw hi
    obtain ⟨u, hu⟩ : ∃ u, exec .sync { s with inputs := List.replicate n (.command .sync) ++ rest } = .next u :=
      ⟨_, exec_ready hs⟩
    have ho := exec_outcome hu
    have hseq : u.seq = s.seq + 1 := ho.seq
    have htp : u.tp = s.tp := ho.sync_tp hw
    have hframes : framesOf u.events = framesOf s.events ++ [encode s.seq .sync] := ho.framesOf_events
    obtain ⟨halive, -⟩ := hs
    obtain ⟨-, -, hidle⟩ := ho.sync
    have hready : Ready u := ⟨ho.alive.trans halive, hidle⟩
    have hwrite : WriteAccepted u := by rw [WriteAccepted, htp]; exact hw
    obtain ⟨t, hrun, ht, hr, htp', hi', hf⟩ := ih u rest hready hwrite ho.inputs
    refine ⟨t, ?_, ?_, hr, htp'.trans htp, hi', ?_⟩
    · rw [run_succ_of_step ((step_command hi).trans hu), hrun]
    · rw [ht, hseq, seqNo_add_one_toNat]
      omega
    · rw [hf, hframes, hseq, map_range_succ_seqNo (encode · .sync), List.append_assoc]
      rfl

/-- Settles O38: the effects of every outcome begin with the advance and the write. -/
theorem everyOperationAdvancesSeq : Obligations.EveryOperationAdvancesSeq := by
  intro i s t h
  have ho := exec_outcome h
  obtain ⟨tail, he, a, rest, rfl, hrest⟩ := ho.advancesThenWrites
  rw [ho.seq]
  exact ⟨seqNo_add_one_toNat s.seq, a, rest, he, fun q hq => hrest _ hq⟩

/-- Settles O52: the frames of a legal trace are numbered from 0, and the decoder reads the number of each. -/
theorem framesCarryConsecutiveNumbers : Obligations.FramesCarryConsecutiveNumbers := by
  rintro s ⟨hlegal, -⟩ k f hk
  obtain ⟨-, hframes⟩ := hlegal.numberedTo
  obtain ⟨i, rfl⟩ := hframes k f hk
  exact ⟨_, decodeFrame_encode_masked _ i, BitVec.toNat_ofNat k 2⟩

/-- Settles O9: the command byte is the number of the statement, and the rest is how `SEQ` advances. -/
theorem buildFrameResult : Obligations.BuildFrameResult := by
  intro code payload s f t body
  have hf : f = body ++ [crc8 body] := by
    show frameBytes s.seq code payload = _
    rw [frameBytes, cmdByte_eq_ofNat]
    rfl
  exact ⟨hf, by simp [hf, body], seqNo_add_one_toNat s.seq, rfl, rfl, rfl, rfl, rfl⟩

end Sys2Proof.Proofs

/-! SUPPORT. SYNC's frame written out, and what an issued operation does where its write is accepted (SYNC) or fails. -/

namespace Sys2Proof

/-- R71 with the code of SYNC: the command byte as the number that the rule writes. -/
theorem syncCmdByte_eq_ofNat :
    ∀ q : SeqNo, q ++ Config.cmdSync = BitVec.ofNat 8 (0x01 ||| (q.toNat <<< 6)) := by decide

/-- R45, R80: the 19 bytes of a SYNC. -/
theorem encode_sync (q : SeqNo) :
    encode q .sync = sealBody [0x55, BitVec.ofNat 8 (0x01 ||| (q.toNat <<< 6)), 0x1F, 0x2E, 0x3D, 0x4C, 0x5B, 0x6A,
      0x79, 0x88, 0x97, 0xA6, 0xB5, 0xC4, 0xD3, 0xE2, 0xF1, 0x01] := by
  rw [← syncCmdByte_eq_ofNat]
  rfl

end Sys2Proof

namespace Sys2Proof.Machine

open Sys2Proof.Safety

/-- R20: what makes a write fail decides the error it fails with. -/
theorem writeFails_unique {s : State} {e e' : TransportError} (h : WriteFails s e) (h' : WriteFails s e') : e = e' := by
  rcases h with hc | ⟨hc, hw⟩ <;> rcases h' with hc' | ⟨hc', hw'⟩
  · exact Option.some.inj (hc.symm.trans hc')
  · cases hc.symm.trans hc'
  · cases hc.symm.trans hc'
  · exact Option.some.inj (hw.symm.trans hw')

/-- A closed transport reports its error and stays as it is (R132). -/
theorem write_tp_of_closed {tp : Transport} {e : TransportError} (h : tp.closedError = some e) : tp.write.2 = tp := by
  simp [Transport.write, h]

/-- A transport that is not closed uses up the failure it decided (log entry 3). -/
theorem write_tp_of_fault {tp : Transport} {e : TransportError} (hc : tp.closedError = none)
    (hw : tp.writeFault = some e) : tp.write.2 = { tp with writeFault := none } := by
  simp [Transport.write, hc, hw]

/-- R80, R82: a SYNC whose write is accepted. -/
theorem exec_sync_sent {s : State} (hs : Ready s) (hw : WriteAccepted s) :
    exec .sync s = .next { s with
      seq := s.seq + 1
      events := s.events ++ [.seqChanged (s.seq + 1), .tpWrite (encode s.seq .sync) .ok, .result .unit] } := by
  obtain ⟨t, ht⟩ : ∃ t, exec .sync s = .next t := ⟨_, exec_ready hs⟩
  obtain ⟨-, hidle⟩ := hs
  rw [ht, hidle]
  cases exec_outcome ht with
  | unsent _ e hf => exact absurd hw (not_writeAccepted_of_writeFails hf)
  | syncDone => rfl

/-- R83, R93: an operation whose write fails is over, whichever it is. -/
theorem exec_unsent {i : Instr} {s : State} {e : TransportError} (hs : Ready s) (hf : WriteFails s e) :
    exec i s = .next { s with
      seq := s.seq + 1, tp := s.tp.write.2
      events := s.events ++ [.seqChanged (s.seq + 1), .tpWrite (encode s.seq i) (.error e),
        .result (.error (.transport e))] } := by
  obtain ⟨t, ht⟩ : ∃ t, exec i s = .next t := ⟨_, exec_ready hs⟩
  obtain ⟨-, hidle⟩ := hs
  rw [ht, hidle]
  have hnot := not_writeAccepted_of_writeFails hf
  cases exec_outcome ht with
  | unsent _ e' hf' =>
    obtain rfl := writeFails_unique hf hf'
    rfl
  | syncDone hw | readFailed _ _ _ _ hw | readAnswered _ _ _ _ _ _ hw | readBlocked _ _ _ hw => exact absurd hw hnot

end Sys2Proof.Machine

/-! The settled statements about SYNC and about failed writes (spec/42_sync.md). -/

namespace Sys2Proof.Proofs

open Sys2Proof.Machine Sys2Proof.Safety

/-- Settles O23: the frame of an accepted SYNC is the encoder's, written out. -/
theorem syncCompletes : Obligations.SyncCompletes := by
  intro s hs hw body
  rw [exec_sync_sent hs hw, encode_sync]
  rfl

/-- Settles O29: a failed write ends either operation; the two clauses differ in what the write leaves of the
transport. -/
theorem failedWriteEndsTheOperation : Obligations.FailedWriteEndsTheOperation := by
  intro i s e hs
  constructor
  · intro hc
    rw [exec_unsent hs (.inl hc), write_tp_of_closed hc]
  · rintro ⟨hc, hw⟩
    rw [exec_unsent hs (.inr ⟨hc, hw⟩), write_tp_of_fault hc hw]

/-- Settles O12: the frame is the encoder's for `SEQ` on entry, evaluated at each of the four values. -/
theorem syncFrames : Obligations.SyncFrames := by
  intro s f q
  have hf : f = encode s.seq .sync := frameBytes_eq_encode s.seq .sync
  have hq : q = s.seq + 1 := rfl
  rw [hf, hq]
  refine ⟨?_, ?_, ?_, ?_⟩ <;> intro h <;> rw [h] <;> decide +kernel

end Sys2Proof.Proofs

/-! SUPPORT. READL by what its `TpRead` meets: the verdict on an answer, the transport's error, and bytes that arrive
before the operation or during it. -/

namespace Sys2Proof

/-- R46: the length field of a request holds length'. -/
theorem encode_readl_lengthField (q : SeqNo) (slave offset length : Nat) :
    ((encode q (.readl slave offset length)).drop 6).take 2 = be16 (mask16 length) := rfl

theorem mask16_eq_zero {v : Nat} (h : v % 65536 = 0) : mask16 v = 0 := BitVec.eq_of_toNat_eq (by simpa using h)

end Sys2Proof

namespace Sys2Proof.Machine

open Sys2Proof.Safety

theorem verdict_of_eq {frame payload : List Byte} {c : Byte} (h : extendedCrc frame payload = c) :
    verdict frame payload c = .payload payload := if_pos h

/-- R100: with no payload the check is over FRAME alone, whose CRC is the residue of a sealed body. -/
theorem verdict_encode_nil (q : SeqNo) (i : Instr) (c : Byte) :
    verdict (encode q i) [] c = if c = 0x3B then .payload [] else .error .crc := by
  rw [verdict, extendedCrc, List.append_nil, encode_eq_sealBody, crc8_sealBody]
  exact if_congr eq_comm rfl rfl

/-! ## Issuing a READL -/

/-- R92 to R98: a READL that finds its response, with its effects written out. -/
theorem exec_readl_verdict {s : State} (slave offset : Nat) {length : Nat} {payload rest : List Byte} {c : Byte}
    (hs : Ready s) (hw : WriteAccepted s) (hr : s.tp.readFault = none) (hrx : s.tp.rx = payload ++ c :: rest)
    (hl : payload.length = length % 65536) :
    exec (.readl slave offset length) s = .next { s with
      seq := s.seq + 1, tp := { s.tp with rx := rest }
      events := s.events ++ [.seqChanged (s.seq + 1), .tpWrite (encode s.seq (.readl slave offset length)) .ok,
        .tpRead (length % 65536 + 1),
        .result (verdict (encode s.seq (.readl slave offset length)) payload c)] } := by
  rw [exec_readl_answered slave offset hs hw hr hrx hl, List.append_assoc]
  obtain ⟨-, hidle⟩ := hs
  rw [hidle]
  rfl

/-- R94, R112: a READL whose request is sent and whose `TpRead` fails. -/
theorem exec_readl_readFailed {s : State} (slave offset length : Nat) {e : TransportError}
    (hs : Ready s) (hw : WriteAccepted s) (hr : s.tp.readFault = some e) :
    exec (.readl slave offset length) s = .next { s with
      seq := s.seq + 1, tp := { s.tp with readFault := none }
      events := s.events ++ [.seqChanged (s.seq + 1), .tpWrite (encode s.seq (.readl slave offset length)) .ok,
        .tpRead (length % 65536 + 1), .result (.error (.transport e))] } := by
  obtain ⟨t, ht⟩ : ∃ t, exec (.readl slave offset length) s = .next t := ⟨_, exec_ready hs⟩
  obtain ⟨-, hidle⟩ := hs
  rw [ht, hidle]
  cases exec_outcome ht with
  | unsent _ e hf => exact absurd hw (not_writeAccepted_of_writeFails hf)
  | readFailed _ _ _ e' _ hf =>
    cases hr.symm.trans hf
    rw [List.append_assoc]
    rfl
  | readAnswered _ _ _ _ _ _ _ hf | readBlocked _ _ _ _ hf => cases hr.symm.trans hf

/-- R91: operands that mask alike make the same operation. -/
theorem exec_eq_of_masked_eq {i j : Instr} (h : i.masked = j.masked) (s : State) : exec i s = exec j s := by
  rw [← exec_masked i, ← exec_masked j, h]

/-- R104, R110: an operation has delivered its result last, or has last asked for the bytes it is blocked on. -/
theorem OpOutcome.endedOrBlocked {s t : State} {i : Instr} (h : OpOutcome s i t) :
    (t.phase = .idle ∧ ∃ r, t.events.getLast? = some (.result r)) ∨
    (∃ f n, t.phase = .await f n ∧ t.events.getLast? = some (.tpRead (n.toNat + 1))) := by
  cases h with
  | unsent | syncDone | readFailed | readAnswered => exact .inl ⟨rfl, by simp⟩
  | readBlocked a b n => exact .inr ⟨_, mask16 n, rfl, by simp [pendingTrace]⟩

/-! ## The failure of an outstanding `TpRead` -/

/-- R132: a closed transport fails the blocked READL with the error it reports. -/
theorem resume_of_closed {s : State} {frame : List Byte} {len : HalfWord} {e : TransportError}
    (h : s.phase = .await frame len) (hc : s.tp.closedError = some e) :
    s.resume = s.finish (.error (.transport e)) := by
  rcases resume_spec h with ⟨e', hc', h'⟩ | ⟨_, hc', -⟩ | ⟨_, _, _, hc', -⟩ | ⟨hc', -⟩ <;> cases hc.symm.trans hc'
  exact h'

/-- R94, R112: a decided failure ends the blocked READL and is used up (log entry 3). -/
theorem resume_of_readFault {s : State} {frame : List Byte} {len : HalfWord} {e : TransportError}
    (h : s.phase = .await frame len) (hc : s.tp.closedError = none) (hr : s.tp.readFault = some e) :
    s.resume = { s with tp := { s.tp with readFault := none } }.finish (.error (.transport e)) := by
  rcases resume_spec h with ⟨_, hc', -⟩ | ⟨e', -, hr', h'⟩ | ⟨_, _, _, -, hr', -⟩ | ⟨-, hr', -⟩
  · cases hc.symm.trans hc'
  · cases hr.symm.trans hr'
    exact h'
  · cases hr.symm.trans hr'
  · cases hr.symm.trans hr'

/-! ## Bytes that arrive before a READL, or during it -/

/-- The state after bytes arrived, a blocked READL not yet resumed (R33). -/
def State.withReceived (bytes : List Byte) (s : State) : State := { s with tp := s.tp.input (.receive bytes) }

theorem transportInput_receive (bytes : List Byte) (s : State) :
    transportInput (.receive bytes) s = (s.withReceived bytes).resume := rfl

section
variable (bytes : List Byte)

theorem tpWrite_withReceived (frame : List Byte) (s : State) :
    tpWrite frame (s.withReceived bytes) = ((tpWrite frame s).1, (tpWrite frame s).2.withReceived bytes) := by
  have hwrite : (s.tp.input (.receive bytes)).write = (s.tp.write.1, s.tp.write.2.input (.receive bytes)) := by
    obtain ⟨rx, _ | c, _ | w, r⟩ := s.tp <;> rfl
  simp [tpWrite, State.withReceived, hwrite]

/-- The first half of READL takes no byte: bytes may come before or after it. -/
theorem readlRequest_withReceived (slave offset length : Nat) (s : State) :
    readlRequest slave offset length (s.withReceived bytes) =
      (readlRequest slave offset length s).withReceived bytes := by
  have hadvance : (s.withReceived bytes).advanceSeq = s.advanceSeq.withReceived bytes := rfl
  have hseq : (s.withReceived bytes).seq = s.seq := rfl
  simp only [readlRequest, buildFrame, hseq, hadvance, tpWrite_withReceived]
  rcases tpWrite _ s.advanceSeq with ⟨_ | e, s₂⟩ <;> rfl

/-- The second half of READL may be tried before bytes arrive: a READL it does not end is as it was, and one it ends
would have ended in the same way with the bytes behind those it took. -/
theorem resume_withReceived_resume (s : State) :
    (s.resume.withReceived bytes).resume = (s.withReceived bytes).resume := by
  cases hp : s.phase with
  | idle => rw [resume_idle hp]
  | await frame len =>
    rcases resume_spec hp with ⟨e, hc, h⟩ | ⟨e, hc, hr, h⟩ | ⟨payload, c, rest, hc, hr, hrx, hl, h⟩ | ⟨-, -, -, h⟩
    · rw [h, resume_idle rfl, resume_of_closed (s := s.withReceived bytes) hp hc]
      rfl
    · rw [h, resume_idle rfl, resume_of_readFault (s := s.withReceived bytes) hp hc hr]
      rfl
    · have hrx' : (s.withReceived bytes).tp.rx = payload ++ c :: (rest ++ bytes) := by
        simp [State.withReceived, Transport.input, hrx]
      rw [h, resume_idle rfl, resume_complete (s := s.withReceived bytes) hp hc hr hrx' hl]
      rfl
    · rw [h]

/-- R104: both halves of READL and then bytes, or the bytes first. -/
theorem transportInput_receive_effectOf_readl (slave offset length : Nat) (s : State) :
    transportInput (.receive bytes) (effectOf (.readl slave offset length) s) =
      effectOf (.readl slave offset length) (s.withReceived bytes) := by
  rw [transportInput_receive, effectOf, effectOf, resume_withReceived_resume, readlRequest_withReceived]

end

/-- An operation carries the further inputs along (R11). -/
theorem effectOf_withInputs (i : Instr) (s : State) (ins : List Input) :
    effectOf i { s with inputs := ins } = { effectOf i s with inputs := ins } :=
  effectOf_withHistory ins [] s i

theorem step_command_ready {s : State} {i : Instr} {rest : List Input} (hs : Ready s)
    (hi : s.inputs = .command i :: rest) : step s = .next (effectOf i { s with inputs := rest }) := by
  rw [step_command hi]
  exact exec_ready (s := { s with inputs := rest }) hs

theorem run_two {s t u : State} (h : step s = .next t) (h' : step t = .next u) :
    Host.Core.run core 2 s = .next u := by
  rw [run_succ_of_step h, run_succ_of_step h']
  rfl

/-- A command first, then an input of the transport, which meets what the command left. -/
theorem run_command_transport {s : State} (hs : Ready s) (i : Instr) (ti : TransportInput) (rest : List Input) :
    Host.Core.run core 2 { s with inputs := .command i :: .transport ti :: rest } =
      .next (transportInput ti (effectOf i { s with inputs := rest })) := by
  refine run_two (step_command_ready hs rfl) ?_
  rw [effectOf_withInputs i s (.transport ti :: rest), effectOf_withInputs i s rest]
  exact step_transport rfl

/-- An input of the transport first, which only changes the transport, then a command. -/
theorem run_transport_command {s : State} (hs : Ready s) (i : Instr) (ti : TransportInput) (rest : List Input) :
    Host.Core.run core 2 { s with inputs := .transport ti :: .command i :: rest } =
      .next (effectOf i { s with inputs := rest, tp := s.tp.input ti }) := by
  have hinput := transportInput_idle (s := { s with inputs := .command i :: rest }) hs.2 ti
  exact run_two ((step_transport rfl).trans (congrArg _ hinput)) (step_command_ready hs rfl)

/-! ## What resumes a blocked READL -/

theorem resume_of_waitsForAReason {s : State} (h : WaitsForAReason s) : s.resume = s := by
  cases hp : s.phase with
  | idle => exact resume_idle hp
  | await frame len =>
    obtain ⟨hc, hr, hrx⟩ := h frame len hp
    exact resume_blocked hp hc hr hrx

/-- R21, R94: of the transport's inputs only bytes and a decided failure of the read can take away the reason to
wait. -/
theorem waitsForAReason_input {s : State} (h : WaitsForAReason s) (ti : TransportInput) :
    (∃ bytes, ti = .receive bytes) ∨ (∃ e, ti = .readFault (some e)) ∨
      WaitsForAReason { s with tp := s.tp.input ti } := by
  cases ti with
  | receive bytes => exact .inl ⟨bytes, rfl⟩
  | clear =>
    refine .inr (.inr fun frame len hp => ?_)
    obtain ⟨hc, hr, -⟩ := h frame len hp
    exact ⟨hc, hr, Nat.succ_pos _⟩
  | writeFault f => exact .inr (.inr h)
  | readFault f =>
    cases f with
    | none =>
      refine .inr (.inr fun frame len hp => ?_)
      obtain ⟨hc, -, hrx⟩ := h frame len hp
      exact ⟨hc, rfl, hrx⟩
    | some e => exact .inr (.inl ⟨e, rfl⟩)

/-- R114: a blocked READL that resuming ends has delivered exactly one result, and `SEQ` is as it was. -/
theorem resume_ended {s : State} {frame : List Byte} {len : HalfWord} (hp : s.phase = .await frame len)
    (hidle : s.resume.phase = .idle) :
    (∃ r, s.resume.events = s.events ++ [.result r]) ∧ s.resume.seq = s.seq := by
  refine ⟨?_, resume_seq s⟩
  rcases resume_ends_or_waits hp with ⟨r, tp, -, h⟩ | h
  · rw [h]
    exact ⟨r, rfl⟩
  · rw [h] at hidle
    cases hp.symm.trans hidle

end Sys2Proof.Machine

/-! The settled statements about READL (spec/43_read_logical.md). -/

namespace Sys2Proof.Proofs

open Sys2Proof.Machine Sys2Proof.Safety

/-- Settles O25: the verdict on a response with the right CRC byte is its payload. -/
theorem readlReturnsThePayload : Obligations.ReadlReturnsThePayload := by
  intro s slave offset length payload rest c hs hw hr hrx hl hcrc
  rw [exec_readl_verdict slave offset hs hw hr hrx hl, verdict_of_eq hcrc]

/-- Settles O26: the verdict on a response with another CRC byte is `CRCError`. -/
theorem readlRaisesCrcError : Obligations.ReadlRaisesCrcError := by
  intro s slave offset length payload rest c hs hw hr hrx hl hcrc
  rw [exec_readl_verdict slave offset hs hw hr hrx hl, verdict_of_ne hcrc]

/-- Settles O27: of the outcomes of a READL, only the failed read agrees with an accepted write and a decided
failure. -/
theorem readlFailsWithTheReadsError : Obligations.ReadlFailsWithTheReadsError :=
  fun _ slave offset length _ hs hw hr => exec_readl_readFailed slave offset length hs hw hr

/-- Settles O30: the step resumes the READL, which finds its response complete. -/
theorem blockedReadCompletes : Obligations.BlockedReadCompletes := by
  intro s frame len bytes payload rest c ins hp hc hr hi hrx hl
  rw [step_transport hi, transportInput_receive,
    resume_complete (s := State.withReceived bytes { s with inputs := ins }) hp hc hr hrx hl]
  rfl

/-- Settles O33: the first order runs the READL and lets the bytes arrive at the outcome, the second runs it on the
state with the bytes, and READL commutes with arriving bytes. -/
theorem splittingReadlAddsNothing : Obligations.SplittingReadlAddsNothing := by
  intro s slave offset length bytes rest hs
  have hcommute := transportInput_receive_effectOf_readl bytes slave offset length { s with inputs := rest }
  calc
    _ = _ := run_command_transport hs (.readl slave offset length) (.receive bytes) rest
    _ = _ := congrArg _ hcommute
    _ = _ := (run_transport_command hs (.readl slave offset length) (.receive bytes) rest).symm

/-- Settles O34: the response is its CRC byte alone, and the CRC of every frame is the residue. -/
theorem zeroLengthRead : Obligations.ZeroLengthRead := by
  intro s slave offset length b rest hs hw hr hzero hrx
  refine ⟨?_, crc8_sealBody _, ?_⟩
  · rw [encode_readl_lengthField, mask16_eq_zero hzero]
    rfl
  · rw [exec_readl_verdict slave offset (payload := []) hs hw hr hrx hzero.symm, verdict_encode_nil, hzero]

/-- Settles O35: a complete response of 65536 bytes, and two operands that mask to 0 and to 4. -/
theorem longestRead : Obligations.LongestRead := by
  refine ⟨fun s slave offset payload rest hs hw hr hl hrx => ?_, fun s slave offset => ?_, fun s slave offset => ?_⟩
  · exact readlReturnsThePayload s slave offset 0xFFFF payload rest _ hs hw hr hrx hl rfl
  · exact exec_eq_of_masked_eq rfl s
  · exact exec_eq_of_masked_eq rfl s

/-- Settles O37: by the outcomes of an operation. -/
theorem issuedOperationsEndOrBlock : Obligations.IssuedOperationsEndOrBlock := by
  intro i s hs
  have h := exec_ready (i := i) hs
  exact ⟨_, h, (exec_outcome h).endedOrBlocked⟩

/-- Settles O51: by the input that the step takes. What leaves the transport without an answer leaves the CORE in
AWAIT, and nothing but a resumed READL leaves it. -/
theorem awaitEndsByTheTransport : Obligations.AwaitEndsByTheTransport := by
  intro s t frame len hwait hp hstep hidle
  cases step_outcome hstep with
  | waited =>
    rw [resume_of_waitsForAReason hwait] at hidle
    cases hp.symm.trans hidle
  | operation i rest _ _ h =>
    obtain ⟨⟨-, hp'⟩, -⟩ := exec_next h
    cases hp.symm.trans hp'
  | transport ti rest hi =>
    refine ⟨?_, resume_ended (s := { s with inputs := rest, tp := s.tp.input ti }) hp hidle⟩
    rcases waitsForAReason_input (s := { s with inputs := rest }) hwait ti with ⟨bytes, rfl⟩ | ⟨e, rfl⟩ | hwait'
    · exact .inl ⟨bytes, rest, hi⟩
    · exact .inr (.inl ⟨e, rest, hi⟩)
    · rw [resume_of_waitsForAReason hwait'] at hidle
      cases hp.symm.trans hidle
  | closed e rest hi =>
    exact ⟨.inr (.inr ⟨e, rest, hi⟩),
      resume_ended (s := { s with inputs := rest, tp := { s.tp with closedError := some e } }) hp hidle⟩
  | destroyed _ _ hp' | created _ _ hp' => cases hp.symm.trans hp'

/-- Settles O31: the input decides the failure or closes the transport, and the step resumes the READL, which meets
it. -/
theorem blockedReadFails : Obligations.BlockedReadFails := by
  intro s frame len e ins hp
  constructor
  · rintro ⟨hc, hi⟩
    rw [step_transport hi, transportInput]
    exact congrArg _ (resume_of_readFault (e := e) hp hc rfl)
  · intro hi
    rw [step_close hi]
    have hmeets := resume_of_closed
      (s := { s with inputs := ins, tp := { s.tp with closedError := some e } }) hp rfl
    exact congrArg _ hmeets

end Sys2Proof.Proofs

/-! SUPPORT. What 60_exceptions.md speaks of: a step that changes nothing, taken any number of times; what refuses a
command, a creation and a close; and the renaming of the transport's errors, with which every operation commutes. -/

namespace Sys2Proof.Machine

open Sys2Proof.Safety

/-! ## Waiting -/

/-- A CORE that waits does so for any number of steps (log entry 6). -/
theorem run_of_step_self {s : State} (h : step s = .next s) (k : Nat) : Host.Core.run core k s = .next s := by
  induction k with
  | zero => rfl
  | succ k ih => rw [run_succ_of_step h, ih]

/-- R122: with no input, a CORE that waits for a reason goes on waiting. -/
theorem step_of_waitsForAReason {s : State} (hi : s.inputs = []) (h : WaitsForAReason s) : step s = .next s := by
  rw [step_nil hi, resume_of_waitsForAReason h]

/-! ## Refusals -/

/-- R125, R132, R134: what refuses a command. -/
theorem exec_refused_iff {i : Instr} {s : State} {r : Refusal} :
    exec i s = .refused r ↔
      (r = .instanceDestroyed ∧ s.alive = false) ∨
      (r = .operationInProgress ∧ s.alive = true ∧ ∃ f n, s.phase = .await f n) := by
  rcases exec_spec i s with ⟨⟨ha, hp⟩, h⟩ | ⟨ha, h⟩ | ⟨ha, hp, h⟩ <;> rw [h]
  · simp [ha, hp]
  · simp [ha, eq_comm (a := r)]
  · simp [ha, hp, eq_comm (a := r)]

/-- R132, log entry 19: what refuses a close. -/
theorem closeTransport_refused_iff {report : Option TransportError} {s : State} {r : Refusal} :
    closeTransport report s = .refused r ↔
      report = none ∧ r = .closedInProgress ∧ ∃ f n, s.phase = .await f n := by
  rcases closeTransport_spec report s with ⟨e, hr, h⟩ | ⟨hr, hp, h⟩ | ⟨hr, hp, h⟩ <;> rw [h]
  · simp [hr]
  · simp [hp]
  · simp [hr, hp, eq_comm (a := r)]

/-- R131, R136: what refuses a creation. -/
theorem createInstance_refused_iff {s : State} {r : Refusal} :
    createInstance s = .refused r ↔
      (r = .transportShared ∧ s.alive = true ∧ s.phase = .idle ∧ s.tp.closedError = none) ∨
      (r = .resetInProgress ∧ ∃ f n, s.phase = .await f n) := by
  rcases createInstance_spec s with ⟨hp, hfree, h⟩ | ⟨hp, ha, hc, h⟩ | ⟨⟨f, n, hp⟩, h⟩ <;> rw [h]
  · rcases hfree with ha | hc
    · simp [hp, ha]
    · simp [hp, hc]
  · simp [hp, ha, hc, eq_comm (a := r)]
  · simp [hp, eq_comm (a := r)]

/-! ## Renaming the transport's errors -/

section
variable (ρ : TransportError → TransportError) (s : State)

@[simp] theorem renameErrors_seq : (renameErrors ρ s).seq = s.seq := rfl
@[simp] theorem renameErrors_phase : (renameErrors ρ s).phase = s.phase := rfl
@[simp] theorem renameErrors_tp : (renameErrors ρ s).tp = renameTransport ρ s.tp := rfl
@[simp] theorem renameErrors_inputs : (renameErrors ρ s).inputs = s.inputs.map (renameInput ρ) := rfl

/-- The answer of a `TpRead` under renaming, beside `renameAnswer` for a `TpWrite`. -/
def renameRead : ReadAnswer → ReadAnswer
  | .error e => .error (ρ e)
  | a => a

theorem write_rename (tp : Transport) :
    (renameTransport ρ tp).write = (renameAnswer ρ tp.write.1, renameTransport ρ tp.write.2) := by
  obtain ⟨rx, _ | c, _ | w, rf⟩ := tp <;> rfl

theorem read_rename (n : Nat) (tp : Transport) :
    (renameTransport ρ tp).read n = (renameRead ρ (tp.read n).1, renameTransport ρ (tp.read n).2) := by
  obtain ⟨rx, _ | c, wf, _ | r⟩ := tp
  · by_cases h : n ≤ rx.length <;> simp [Transport.read, renameTransport, renameRead, h]
  all_goals rfl

theorem input_rename (ti : TransportInput) (tp : Transport) : ∃ ti',
    renameInput ρ (.transport ti) = .transport ti' ∧
      (renameTransport ρ tp).input ti' = renameTransport ρ (tp.input ti) := by
  cases ti <;> exact ⟨_, rfl, rfl⟩

theorem advanceSeq_rename : (renameErrors ρ s).advanceSeq = renameErrors ρ s.advanceSeq := by
  simp [renameErrors, State.advanceSeq, renameEvent]

theorem tpWrite_rename (frame : List Byte) :
    tpWrite frame (renameErrors ρ s) = (renameAnswer ρ (tpWrite frame s).1, renameErrors ρ (tpWrite frame s).2) := by
  simp [renameErrors, tpWrite, write_rename, renameEvent]

theorem beginRead_rename (frame : List Byte) (len : HalfWord) :
    (renameErrors ρ s).beginRead frame len = renameErrors ρ (s.beginRead frame len) := by
  simp [renameErrors, State.beginRead, renameEvent]

theorem finish_rename (r : OpResult) :
    (renameErrors ρ s).finish (renameResult ρ r) = renameErrors ρ (s.finish r) := by
  simp [renameErrors, State.finish, renameEvent]

theorem raise_transport_rename (e : TransportError) :
    (renameErrors ρ s).raise (.transport (ρ e)) = renameErrors ρ (s.raise (.transport e)) :=
  finish_rename ρ s (.error (.transport e))

theorem syncBody_rename : syncBody (renameErrors ρ s) = renameErrors ρ (syncBody s) := by
  simp only [syncBody, buildFrame, renameErrors_seq, advanceSeq_rename, tpWrite_rename]
  rcases tpWrite (frameBytes s.seq Config.cmdSync syncPayload) s.advanceSeq with ⟨_ | e, s₂⟩
  · exact finish_rename ρ s₂ .unit
  · exact raise_transport_rename ρ s₂ e

theorem readlRequest_rename (slave offset length : Nat) :
    readlRequest slave offset length (renameErrors ρ s) = renameErrors ρ (readlRequest slave offset length s) := by
  simp only [readlRequest, buildFrame, renameErrors_seq, advanceSeq_rename, tpWrite_rename]
  generalize frameBytes s.seq Config.cmdReadl _ = frame
  rcases tpWrite frame s.advanceSeq with ⟨_ | e, s₂⟩
  · exact beginRead_rename ρ s₂ frame (mask16 length)
  · exact raise_transport_rename ρ s₂ e

/-- R96, R97: the check of a response names no transport error. -/
theorem checkResponse_rename (frame : List Byte) (len : HalfWord) (resp : List Byte) :
    checkResponse frame len resp (renameErrors ρ s) = renameErrors ρ (checkResponse frame len resp s) := by
  unfold checkResponse
  rcases splitResponse len.toNat resp with _ | ⟨payload, c⟩
  · rfl
  · cases h : crcMatches frame payload c <;> simp only [h]
    · exact finish_rename ρ s (.error .crc)
    · exact finish_rename ρ s (.payload payload)

theorem resume_rename : (renameErrors ρ s).resume = renameErrors ρ s.resume := by
  cases hp : s.phase with
  | idle => rw [resume_idle hp, resume_idle (s := renameErrors ρ s) hp]
  | await frame len =>
    rcases hr : s.tp.read (len.toNat + 1) with ⟨resp | e | _, tp⟩ <;>
      simp only [State.resume, renameErrors_phase, renameErrors_tp, read_rename, renameRead, hp, hr]
    · rw [← checkResponse_rename]; rfl
    · rw [← raise_transport_rename]; rfl

theorem effectOf_rename (i : Instr) : effectOf i (renameErrors ρ s) = renameErrors ρ (effectOf i s) := by
  cases i with
  | sync => exact syncBody_rename ρ s
  | readl a b n => rw [effectOf, effectOf, readlRequest_rename, resume_rename]

/-- R125: what refuses a command is no transport error. -/
theorem issueRefusal_rename : issueRefusal (renameErrors ρ s) = issueRefusal s := rfl

theorem exec_rename (i : Instr) : exec i (renameErrors ρ s) = mapNext (renameErrors ρ) (exec i s) := by
  rw [exec_eq_elim, exec_eq_elim, issueRefusal_rename, effectOf_rename]
  cases issueRefusal s <;> rfl

theorem closeTransport_rename (report : Option TransportError) :
    closeTransport (report.map ρ) (renameErrors ρ s) = mapNext (renameErrors ρ) (closeTransport report s) := by
  cases report with
  | some e => exact congrArg _ (resume_rename ρ { s with tp := { s.tp with closedError := some e } })
  | none => cases hp : s.phase <;> simp only [closeTransport, Option.map_none, renameErrors_phase, hp] <;> rfl

/-- R136: whether the transport is closed matters for a creation, and not by which error. -/
theorem createInstance_rename :
    createInstance (renameErrors ρ s) = mapNext (renameErrors ρ) (createInstance s) := by
  obtain ⟨seq, _ | ⟨f, n⟩, _ | _, ⟨rx, _ | c, wf, rf⟩, inputs, events⟩ := s <;> rfl

end

end Sys2Proof.Machine

/-! The settled statements about errors and refusals (spec/60_exceptions.md). -/

namespace Sys2Proof.Proofs

open Sys2Proof.Machine Sys2Proof.Safety

/-- Settles O46: by the input that the step takes; what it does with it commutes with the renaming. -/
theorem transportErrorsAreNeverInspected : Obligations.TransportErrorsAreNeverInspected := by
  intro ρ s
  cases hi : s.inputs with
  | nil =>
    have hi' : (renameErrors ρ s).inputs = [] := by rw [renameErrors_inputs, hi]; rfl
    rw [step_nil hi, step_nil hi', resume_rename]
    rfl
  | cons x rest =>
    have hi' : (renameErrors ρ s).inputs = renameInput ρ x :: rest.map (renameInput ρ) := by
      rw [renameErrors_inputs, hi, List.map_cons]
    cases x with
    | command i =>
      rw [step_command hi, step_command hi']
      exact exec_rename ρ { s with inputs := rest } i
    | transport ti =>
      obtain ⟨ti', hti, htp⟩ := input_rename ρ ti s.tp
      rw [hti] at hi'
      rw [step_transport hi, step_transport hi', transportInput, renameErrors_tp, htp]
      exact congrArg _ (resume_rename ρ { s with inputs := rest, tp := s.tp.input ti })
    | close report =>
      rw [step_close hi, step_close hi']
      exact closeTransport_rename ρ { s with inputs := rest } report
    | create =>
      rw [step_create hi, step_create hi']
      exact createInstance_rename ρ { s with inputs := rest }

/-- Settles O42: by the input that the step takes; waiting and the transport's own inputs are never refused. -/
theorem refusedInExactlyFiveCases : Obligations.RefusedInExactlyFiveCases := by
  intro s r
  cases hi : s.inputs with
  | nil => simp [step_nil hi]
  | cons x rest =>
    cases x with
    | command i =>
      rw [step_command hi, exec_refused_iff]
      simp
    | transport ti => simp [step_transport hi]
    | close report =>
      rw [step_close hi, closeTransport_refused_iff]
      cases report <;> simp
    | create =>
      rw [step_create hi, createInstance_refused_iff]
      simp

/-- Settles O32: the transport has no answer, so the step leaves the state as it is, and so does any number of steps. -/
theorem unansweredReadNeverEnds : Obligations.UnansweredReadNeverEnds := by
  intro k s frame len hp hi hc hr hrx
  have hwait : WaitsForAReason s := by
    intro frame' len' hp'
    cases hp.symm.trans hp'
    exact ⟨hc, hr, Nat.lt_succ_of_le hrx⟩
  exact run_of_step_self (step_of_waitsForAReason hi hwait) k

end Sys2Proof.Proofs

/-! SUPPORT. What spec/70_reset_and_hazards.md speaks of beyond the steps: closing and creating in IDLE. -/

namespace Sys2Proof.Machine

/-- R132: in IDLE a close without a report destroys the instance, and nothing else happens. -/
theorem closeTransport_none_idle {s : State} (hp : s.phase = .idle) :
    closeTransport none s = .next { s with alive := false } := by
  rcases closeTransport_spec none s with ⟨e, hr, -⟩ | ⟨-, -, h⟩ | ⟨-, ⟨f, n, hawait⟩, -⟩
  · cases hr
  · exact h
  · cases hp.symm.trans hawait

/-- R130: in IDLE, a transport that no instance owns any more takes a new one. -/
theorem createInstance_destroyed {s : State} (hp : s.phase = .idle) (ha : s.alive = false) :
    createInstance s =
      .next { s with seq := 0, alive := true, tp := { s.tp with closedError := none }, events := [] } := by
  rcases createInstance_spec s with ⟨-, -, h⟩ | ⟨-, halive, -⟩ | ⟨⟨f, n, hawait⟩, -⟩
  · exact h
  · cases ha.symm.trans halive
  · cases hp.symm.trans hawait

end Sys2Proof.Machine

/-! The settled statements about creation, waiting and `SEQ` over a history (spec/70_reset_and_hazards.md). -/

namespace Sys2Proof.Proofs

open Sys2Proof.Machine Sys2Proof.Safety

/-- Settles O53: `SEQ` is the number that the next frame of a legal trace carries. -/
theorem seqCountsOperations : Obligations.SeqCountsOperations := by
  rintro s ⟨hlegal, -⟩
  obtain ⟨hseq, -⟩ := hlegal.numberedTo
  rw [hseq]
  exact BitVec.toNat_ofNat (framesOf s.events).length 2

/-- Settles O21: with no input a step resumes, and in IDLE there is nothing to resume. -/
theorem idleCoreWaits : Obligations.IdleCoreWaits := by
  intro s hp hi
  rw [step_nil hi, resume_idle hp]

/-- Settles O43: the close destroys the instance, which leaves the transport to the creation. -/
theorem creationStartsAfresh : Obligations.CreationStartsAfresh := by
  intro s rest hp hi
  have hclose : step s = .next { s with inputs := .create :: rest, alive := false } :=
    (step_close hi).trans (closeTransport_none_idle hp)
  exact run_two hclose ((step_create rfl).trans (createInstance_destroyed hp rfl))

end Sys2Proof.Proofs
